-- ==== Sys2Proof/Word.lean ====
section
/-! DEFINITION. The word of the part, an unsigned 32-bit value, and the byte of a link (00_scope.md, Conventions,
"Words"). -/

namespace Sys2Proof

/-- A word of a sector: 32 bits, arithmetic mod 2^32 (00_scope.md, "Words" and "Arithmetic"). -/
abbrev Word := BitVec 32

/-- A byte of a sector as it crosses the link (R62). -/
abbrev Byte := BitVec 8

end Sys2Proof
end

