-- ==== Sys2Proof/Config.lean ====
section
/-! DEFINITION. The fixed sizes and constants of the part, each from the rule named beside it. No value of the
spec is left undefined after a command, so no free value stands here. -/

namespace Sys2Proof.Config

/-- Sector buffers of the Capture Pool (R42). -/
def bufferCount : Nat := 48
/-- Records of one pending command table (R18). -/
def tableSize : Nat := 16
/-- Extents of one Coverage Map (R90). -/
def extentLimit : Nat := 64
/-- Entries of one Defect List (R109). -/
def entryLimit : Nat := 24
/-- Greatest count of one defect entry (R112). -/
def entryCountMax : Nat := 65535
/-- Greatest value of a 16-bit saturating counter (00_scope.md, "Saturating counters"). -/
def max16 : Nat := 65535
/-- Greatest value of a 32-bit saturating counter (00_scope.md, "Saturating counters"). -/
def max32 : Nat := 4294967295
/-- Greatest attempt number (R128). -/
def maxAttempt : Nat := 255
/-- Number of LBAs: an LBA is below 2^48 (00_scope.md, "LBAs"). -/
def lbaCount : Nat := 281474976710656
/-- Greatest count of sectors one command addresses (R5). -/
def maxCommandCount : Nat := 65536
/-- Word 0 of a signed record (R55, R173). -/
def signature0 : Word := 0x6A4E31D7#32
/-- Word 1 of a signed record (R55, R173). -/
def signature1 : Word := 0x9C15E2B8#32
/-- Words of a report (R175). -/
def reportWords : Nat := 128
/-- Words of a marker sector that the record keeps (R24). -/
def markerWords : Nat := 32

end Sys2Proof.Config
end

