-- ==== Sys2Proof/Syntax.lean ====
section
/-! DEFINITION. The commands of the block: one constructor of `Instr` per row of spec/opcode_table.json, with the
operands the row's event carries. -/

namespace Sys2Proof

/-- A lane: one of the eight drive links and the blocks dedicated to it (00_scope.md, "Lanes"). -/
abbrev LaneId := Fin 8

/-- The link tag that names a command until it completes (R5). -/
abbrev Tag := Fin 32

/-- Direction of a data sector (01_lane_traffic.md, "Data sectors"). -/
inductive Direction where
  | towardDrive
  | towardStation
  deriving DecidableEq, Repr

/-- Status of a completion (R7). -/
inductive Status where
  | good
  | error
  deriving DecidableEq, Repr

/-- The commands of the block, one per row of opcode_table.json. LBAs, counts and sector indices are numbers.
`WellFormed` gives the ranges a link can carry. `cut` says whether the link event cuts off the sector then
crossing the tap (R58). -/
inductive Instr where
  /-- POWER_ON (R179). -/
  | powerOn
  /-- RACK_RESET: the reset input has been low for 10 ms (R180). -/
  | rackReset
  /-- RACK_RESET_RELEASE (R180). -/
  | rackResetRelease
  /-- ATTACH: a drive on an ABSENT lane identifies, giving the bytes of its sector format (R2). -/
  | attach (lane : LaneId) (format : Nat)
  /-- IDENTIFY_NEW_FORMAT: a drive on a PRESENT lane identifies again (R2). -/
  | identifyNewFormat (lane : LaneId) (format : Nat) (cut : Bool)
  /-- DETACH: presence is lost (R3). -/
  | detach (lane : LaneId) (cut : Bool)
  /-- LINK_RESET (R4). -/
  | linkReset (lane : LaneId) (cut : Bool)
  /-- COMMAND_READ (R5, R19). -/
  | commandRead (lane : LaneId) (tag : Tag) (start count : Nat)
  /-- COMMAND_WRITE (R5, R19). -/
  | commandWrite (lane : LaneId) (tag : Tag) (start count : Nat)
  /-- COMMAND_FLUSH (R5, R20). -/
  | commandFlush (lane : LaneId) (tag : Tag)
  /-- COMMAND_DISCARD (R5, R19). -/
  | commandDiscard (lane : LaneId) (tag : Tag) (start count : Nat)
  /-- COMMAND_OTHER (R5, R21). -/
  | commandOther (lane : LaneId) (tag : Tag)
  /-- DATA: a data sector announced at a sector boundary, with the bytes that pass, in link order, if it starts (R6,
  R62). -/
  | data (lane : LaneId) (tag : Tag) (direction : Direction) (index : Nat) (bytes : List Byte)
  /-- COMPLETE: a completion frame, with the failing LBA the frame gives, if any (R7). -/
  | complete (lane : LaneId) (tag : Tag) (status : Status) (errorLba : Option Nat)
  /-- JOB_COMPLETION: the Compare Engine finishes its job (R57). -/
  | jobCompletion
  /-- WAITING_SECTOR_START: the lane's waiting sector starts, with the bytes that pass (R48, R62). -/
  | waitingSectorStart (lane : LaneId) (bytes : List Byte)
  /-- STALL_EXPIRY: the lane's stall timer reaches its limit (R142). -/
  | stallExpiry (lane : LaneId)
  /-- DRAIN_EXPIRY: the lane's drain timer reaches its limit (R134, R135). -/
  | drainExpiry (lane : LaneId)
  /-- START_UP_READ_END: the Issue Store's start-up read ends (R161). -/
  | startUpReadEnd (success : Bool)
  /-- STORE_WRITE_END: the Issue Store's write ends (R164, R165). -/
  | storeWriteEnd (success : Bool)
  /-- POWER_LOSS: supply is lost. `numberStored` says whether the number being written by a store write in
  flight is the one left in storage (R161, remark). -/
  | powerLoss (numberStored : Bool)
  deriving DecidableEq, Repr

end Sys2Proof
end

