-- ==== Sys2Proof/Machine/State.lean ====
section
/-! DEFINITION. The state of the part, as plain data: block by block what 00_scope.md ("The blocks") and the
chapters that own each block give it, and `State.reset`, the part just after power-on (R179). -/

namespace Sys2Proof.Machine

/-! ## Names used by several blocks -/

/-- Sector format of a drive (R2). -/
inductive SectorSize where
  | bytes512
  | bytes4096
  deriving DecidableEq, Repr

/-- The run states of a lane (08_runs_and_passes.md). -/
inductive RunState where
  | detached
  | idle
  | running
  | suspended
  | closing
  | issuing
  | issued
  | rejected
  deriving DecidableEq, Repr

/-- The run's pass index and attempt at one moment (02_command_tracking.md). -/
structure Stamp where
  pass : Nat
  attempt : Nat
  deriving DecidableEq, Repr

/-- The seven fault classes (R145). -/
inductive FaultClass where
  | writeMismatch
  | readMismatch
  | mediumError
  | foreignWrite
  | stall
  | defectOverrun
  | linkReset
  deriving DecidableEq, Repr

/-- One fault of a group: its class, and its LBA when it carries one (R145). -/
structure LaneFault where
  cls : FaultClass
  lba : Option Nat
  deriving DecidableEq, Repr

/-- The four fault actions (R151). -/
inductive Action where
  | note
  | suspend
  | restart
  | fail
  deriving DecidableEq, Repr

/-- Why a plan is refused (R81). -/
inductive RefusalReason where
  | notReady
  | check
  | version
  | reserved
  | sector
  | range
  | passes
  | pattern
  | verify
  | action
  deriving DecidableEq, Repr

/-- Outcomes a report can carry (11_sector_formats_indicators_and_start_up.md, "Codes"). -/
inductive RunOutcome where
  | clean
  | exceptions
  | failed
  | halted
  | rejected
  deriving DecidableEq, Repr

/-- Reasons a report can carry (11_sector_formats_indicators_and_start_up.md, "Codes"). -/
inductive Reason where
  | none
  | fault (c : FaultClass)
  | halt
  | lateWrite
  | postWrite
  | refused (r : RefusalReason)
  deriving DecidableEq, Repr

/-- An outcome with its reason (R132). -/
structure Verdict where
  outcome : RunOutcome
  reason : Reason
  deriving DecidableEq, Repr

/-! ## Plans -/

/-- Pattern kinds (R63). -/
inductive PatternKind where
  | fill
  | pair
  | stream
  | invert
  deriving DecidableEq, Repr

/-- Verify modes (R83). -/
inductive VerifyMode where
  | none
  | sampled
  | full
  deriving DecidableEq, Repr

/-- One pass definition of a plan (R82). -/
structure PassDef where
  kind : PatternKind
  verify : VerifyMode
  operand1 : Word
  operand2 : Word
  stride : Nat
  phase : Nat
  deriving DecidableEq, Repr

/-- The plan record: the accepted plan's fields after clamping (R82, R84). `actions` is in class order. -/
structure Plan where
  runId : BitVec 64
  first : Nat
  last : Nat
  size : SectorSize
  flush : Bool
  pacing : Fin 4
  stall : Fin 8
  allowance : Nat
  actions : Vector Action 7
  passes : List PassDef
  deriving DecidableEq, Repr

/-! ## Lane Tap (01_lane_traffic.md) -/

/-- The data sector stopped at the boundary while it waits for a buffer (R11). -/
structure Waiting where
  tag : Tag
  direction : Direction
  index : Nat
  deriving DecidableEq, Repr

/-- A filled slot of the read address table (R12). -/
structure ReadSlot where
  start : Nat
  count : Nat
  deriving DecidableEq, Repr

/-- The number of a sector buffer of the Capture Pool (R42). -/
abbrev BufferId := Fin 48

/-- The state of one Lane Tap. `sectorSize` is absent exactly while presence is ABSENT. `crossing` is the buffer
into which the words of the sector that last started on the link pass, if that sector was captured (R45, R58). -/
structure Tap where
  sectorSize : Option SectorSize
  trigger : Bool
  poolReason : Bool
  waiting : Option Waiting
  readTable : Vector (Option ReadSlot) 32
  reportReady : Bool
  crossing : Option BufferId
  deriving DecidableEq, Repr

/-! ## Command Tracker (02_command_tracking.md) -/

/-- The tracked kinds, each with the fields its records hold. A FLUSH has no LBA and no count, and holds its
flush number (R19, R20). -/
inductive Operation where
  | read (start count : Nat)
  | write (start count : Nat)
  | flush (number : Nat)
  | discard (start count : Nat)
  deriving DecidableEq, Repr

/-- The comparison outcomes MATCH and MISMATCH (R70). -/
inductive Comparison where
  | matched
  | mismatched
  deriving DecidableEq, Repr

/-- An entry of a record's result list (02_command_tracking.md). -/
inductive Entry where
  | notCaptured
  | pending
  | compared (outcome : Comparison)
  | marker (kind : Nat) (outcome : Comparison)
  deriving DecidableEq, Repr

/-- The marker words a record keeps, with the sector index they came from (R24). -/
structure MarkerCopy where
  index : Nat
  words : List Word
  deriving DecidableEq, Repr

/-- A completion entered in a record (R25). -/
structure Completion where
  status : Status
  errorLba : Option Nat
  deriving DecidableEq, Repr

/-- A record of the pending command table (R19). `stamp` is absent for the stamp *none*. -/
structure Record where
  tag : Tag
  operation : Operation
  stamp : Option Stamp
  entries : List Entry
  marker : Option MarkerCopy
  outstanding : Nat
  completion : Option Completion
  deriving DecidableEq, Repr

/-- The state of one Command Tracker. -/
structure Tracker where
  records : List Record
  epoch : Nat
  untracked : Nat
  deriving DecidableEq, Repr

/-! ## Capture Pool and Compare Engine (03_capture_and_comparison.md) -/

/-- One captured sector: its record's tag, sector index and direction, its buffer, and the words in that buffer,
formed from the sector's bytes on the link (R62). -/
structure Job where
  tag : Tag
  index : Nat
  direction : Direction
  buffer : BufferId
  words : List Word
  deriving DecidableEq, Repr

/-- What the Capture Pool keeps for one lane. `queue` is oldest first. -/
structure Capture where
  queue : List Job
  reservation : Option BufferId
  pacing : Fin 4
  deriving DecidableEq, Repr

/-- What the Capture Pool keeps for all lanes: the FREE buffers, and the pool waiting list, oldest first. -/
structure Pool where
  freeBuffers : List BufferId
  waitingList : List LaneId
  deriving DecidableEq, Repr

/-- The context a job takes at its grant (R54). `plan` is present where a run is active. -/
structure GrantContext where
  operation : Operation
  stamp : Option Stamp
  lba : Nat
  plan : Option Plan
  deriving DecidableEq, Repr

/-- The job in flight. `context` is absent only if no record had the job's tag at the grant (log 22). -/
structure Flight where
  lane : LaneId
  job : Job
  context : Option GrantContext
  discard : Bool
  deriving DecidableEq, Repr

/-- The state of the Compare Engine (R52). -/
structure Engine where
  lastGranted : LaneId
  inFlight : Option Flight
  deriving DecidableEq, Repr

/-! ## Coverage Map (06_the_coverage_map.md) -/

/-- The strength of an extent's credit. CACHED credit carries its epoch (R88, R89). -/
inductive Credit where
  | cached (epoch : Nat)
  | written
  | verified
  deriving DecidableEq, Repr

/-- A run of consecutive LBAs that share one credit state, both ends included. -/
structure Extent where
  first : Nat
  last : Nat
  credit : Credit
  deriving DecidableEq, Repr

/-- The state of one Coverage Map. -/
structure Coverage where
  extents : List Extent
  uncredited : Nat
  deriving DecidableEq, Repr

/-! ## Defect List (07_defects_and_completeness.md) -/

/-- How the drive failed the sectors of an entry. -/
inductive DefectKind where
  | writeFail
  | readFail
  | mismatch
  deriving DecidableEq, Repr

/-- An entry of the Defect List. -/
structure DefectEntry where
  first : Nat
  count : Nat
  kind : DefectKind
  pass : Nat
  deriving DecidableEq, Repr

/-- The state of one Defect List. -/
structure DefectList where
  entries : List DefectEntry
  unlisted : Nat
  total : Nat
  deriving DecidableEq, Repr

/-! ## Run Controller (05, 08 and 09) -/

/-- Status of a pass record (R129). -/
inductive PassStatus where
  | notReached
  | incomplete
  | complete
  deriving DecidableEq, Repr

/-- A pass record. Its pass number is its place among the four (R129). -/
structure PassRecord where
  kind : PatternKind
  verify : VerifyMode
  status : PassStatus
  attempts : Nat
  written : Nat
  verified : Nat
  seconds : Nat
  deriving DecidableEq, Repr

/-- The first-fault record (R150). -/
structure FirstFault where
  cls : FaultClass
  pass : Nat
  lba : Option Nat
  deriving DecidableEq, Repr

/-- The issue flag of a report (R163, R164). -/
inductive IssueFlag where
  | recorded
  | unrecorded
  deriving DecidableEq, Repr

/-- The fields of a certificate, pending or held (R136, R168). The snapshot also keeps the anchor, which is not
printed. -/
structure Certificate where
  verdict : Verdict
  unitNumber : BitVec 64
  issueNumber : Nat
  flag : IssueFlag
  size : SectorSize
  passCount : Nat
  passesCompleted : Nat
  runId : BitVec 64
  first : Nat
  last : Nat
  anchor : Option Nat
  firstFault : Option FirstFault
  tallies : Vector Nat 7
  untracked : Nat
  stale : Nat
  uncredited : Nat
  unlisted : Nat
  runSeconds : Nat
  allowance : Nat
  total : Nat
  passRecords : Vector PassRecord 4
  entries : List DefectEntry
  deriving DecidableEq, Repr

/-- The fields of a rejection report that are not constant (R172). -/
structure Rejection where
  reason : RefusalReason
  unitNumber : BitVec 64
  size : SectorSize
  runId : BitVec 64
  deriving DecidableEq, Repr

/-- What the lane will return at the anchor, or is preparing (08_runs_and_passes.md). -/
inductive HeldReport where
  | absent
  | pending (c : Certificate)
  | certificate (c : Certificate)
  | rejection (r : Rejection)
  deriving DecidableEq, Repr

/-- The state of one Run Controller. `current` holds the pass index and the attempt, which are present and absent
together (R78, R85, R86). `tallies` is in class order. -/
structure RunControl where
  state : RunState
  anchor : Option Nat
  runId : Option (BitVec 64)
  plan : Option Plan
  refusal : Option RefusalReason
  current : Option Stamp
  passRecords : Vector PassRecord 4
  runClock : Nat
  stallTimer : Nat
  drainTimer : Nat
  verdict : Option Verdict
  stale : Nat
  held : HeldReport
  tallies : Vector Nat 7
  firstFault : Option FirstFault
  deriving DecidableEq, Repr

/-! ## One lane -/

/-- The blocks and shared-block state dedicated to one lane, with its lamp latch (R177). -/
structure Lane where
  tap : Tap
  tracker : Tracker
  capture : Capture
  coverage : Coverage
  defects : DefectList
  run : RunControl
  latch : Bool
  deriving DecidableEq, Repr

/-! ## Issue Store (10_certificates_and_the_issue_store.md) -/

/-- Status of the Issue Store (R160, R161). -/
inductive StoreStatus where
  | starting
  | ready
  | degraded
  deriving DecidableEq, Repr

/-- The start-up read: not begun or over, in flight, or put off until the store write in flight ends (R180). -/
inductive StartUpRead where
  | noRead
  | inFlight
  | deferred
  deriving DecidableEq, Repr

/-- The request being served by a store write (R163). -/
structure StoreWrite where
  lane : LaneId
  number : Nat
  laneGone : Bool
  deriving DecidableEq, Repr

/-- The state of the Issue Store. `storedNumber` is the nonvolatile issue number. -/
structure Store where
  unitNumber : BitVec 64
  storedNumber : Nat
  status : StoreStatus
  read : StartUpRead
  requests : List LaneId
  writeInFlight : Option StoreWrite
  deriving DecidableEq, Repr

/-! ## The links' outputs -/

/-- What the tap forwards, in the fields the part decodes (R5, R6, R7, R8). A sector is its bytes, in link order
(R62). -/
inductive Traffic where
  | readCommand (tag : Tag) (start count : Nat)
  | writeCommand (tag : Tag) (start count : Nat)
  | flushCommand (tag : Tag)
  | discardCommand (tag : Tag) (start count : Nat)
  | otherCommand (tag : Tag)
  | sector (tag : Tag) (index : Nat) (bytes : List Byte)
  | completion (tag : Tag) (status : Status) (errorLba : Option Nat)
  deriving DecidableEq, Repr

/-- What has left the part on one link, oldest first in each direction (R8). -/
structure Link where
  toDrive : List Traffic
  toStation : List Traffic
  deriving DecidableEq, Repr

/-! ## The whole part -/

/-- The state of the part. `pending` is the queue of commands waiting to be taken, the model's own field. -/
structure State where
  powered : Bool
  inReset : Bool
  lanes : Vector Lane 8
  links : Vector Link 8
  pool : Pool
  engine : Engine
  store : Store
  pending : List Instr
  deriving DecidableEq, Repr

/-- Nothing stops the part: every command has an effect, or is no event, in every state. So no constructor. -/
inductive Fault where
  deriving DecidableEq, Repr

/-- Reasons to refuse a command. -/
inductive Refusal where
  /-- Raised by `exec` for a command with no meaning yet. Safe. No arm of `exec` raises it. -/
  | notModelled (mnemonic : String)
  deriving DecidableEq, Repr

/-! ## Starting values (R179) -/

/-- A Lane Tap at power-on (R1). -/
def Tap.initial : Tap where
  sectorSize := none
  trigger := false
  poolReason := false
  waiting := none
  readTable := Vector.replicate 32 none
  reportReady := false
  crossing := none

/-- A Command Tracker at power-on (R18). -/
def Tracker.initial : Tracker where
  records := []
  epoch := 0
  untracked := 0

/-- A lane's part of the Capture Pool at power-on (R42). -/
def Capture.initial : Capture where
  queue := []
  reservation := none
  pacing := 1

/-- The shared part of the Capture Pool at power-on (R42). -/
def Pool.initial : Pool where
  freeBuffers := List.finRange 48
  waitingList := []

/-- The Compare Engine at power-on (R52). -/
def Engine.initial : Engine where
  lastGranted := 7
  inFlight := none

/-- A Coverage Map at power-on (R91). -/
def Coverage.initial : Coverage where
  extents := []
  uncredited := 0

/-- A Defect List at power-on (R110). -/
def DefectList.initial : DefectList where
  entries := []
  unlisted := 0
  total := 0

/-- A pass record with status not reached and zeros (R123, R129). -/
def PassRecord.initial : PassRecord where
  kind := .fill
  verify := .none
  status := .notReached
  attempts := 0
  written := 0
  verified := 0
  seconds := 0

/-- A Run Controller at power-on, and after a DETACH (R123, R124, R144). -/
def RunControl.initial : RunControl where
  state := .detached
  anchor := none
  runId := none
  plan := none
  refusal := none
  current := none
  passRecords := Vector.replicate 4 PassRecord.initial
  runClock := 0
  stallTimer := 0
  drainTimer := 0
  verdict := none
  stale := 0
  held := .absent
  tallies := Vector.replicate 7 0
  firstFault := none

/-- A lane at power-on (R179). -/
def Lane.initial : Lane where
  tap := .initial
  tracker := .initial
  capture := .initial
  coverage := .initial
  defects := .initial
  run := .initial
  latch := false

/-- A link on which nothing has been forwarded. -/
def Link.initial : Link where
  toDrive := []
  toStation := []

/-- The Issue Store just after power-on (R160). DESIGN CHOICE, unsafe (log 2, log 3): the unit number and the
first issue number are set in manufacture and the spec gives neither; both are 0 here. -/
def Store.initial : Store where
  unitNumber := 0
  storedNumber := 0
  status := .starting
  read := .inFlight
  requests := []
  writeInFlight := none

/-- The part just after power-on (R179): every block at its starting values, the start-up read begun, and no
command waiting. -/
def State.reset : State where
  powered := true
  inReset := false
  lanes := Vector.replicate 8 .initial
  links := Vector.replicate 8 .initial
  pool := .initial
  engine := .initial
  store := .initial
  pending := []

end Sys2Proof.Machine
end

