-- ==== Sys2Proof/Machine/Fields.lean ====
section
/-! DEFINITION. Bytes, halves and sums of words, saturating counters, and the code tables of
11_sector_formats_indicators_and_start_up.md ("Codes"). -/

namespace Sys2Proof.Machine

/-- A counter that holds at its maximum (00_scope.md, "Saturating counters"). -/
def saturate (max n : Nat) : Nat := if n ≤ max then n else max

/-- Byte `n` of a word, byte 0 the least significant (00_scope.md, "Words"). -/
def byteOf (n : Nat) (w : Word) : Nat := w.toNat / 256 ^ n % 256

/-- The low half of a word: bytes 0 and 1. -/
def lowHalf (w : Word) : Nat := w.toNat % 65536

/-- The high half of a word: bytes 2 and 3. -/
def highHalf (w : Word) : Nat := w.toNat / 65536

/-- Word `k` of a list of words. Marker copies hold 32 words, so every word asked for is there (R24). -/
def wordAt (words : List Word) (k : Nat) : Word := words.getD k 0

/-- The sum of words mod 2^32 (00_scope.md, "The check rule"). -/
def sumWords (words : List Word) : Word := words.foldr (· + ·) 0

/-- A word from its four bytes, byte 0 first. -/
def wordOfBytes (b0 b1 b2 b3 : Nat) : Word :=
  BitVec.ofNat 32 (b0 + 256 * b1 + 65536 * b2 + 16777216 * b3)

/-- The words of a sector from its bytes in link order: word `k` from bytes 4k to 4k + 3, the first of the four the least
significant (R62). A last group of fewer than four bytes, which no sector has, makes no word (log 9). -/
def linkWords : List Byte → List Word
  | b0 :: b1 :: b2 :: b3 :: rest => wordOfBytes b0.toNat b1.toNat b2.toNat b3.toNat :: linkWords rest
  | _ => []

/-- The four bytes of a word in link order, the least significant first (R62). -/
def bytesOfWord (w : Word) : List Byte := [0, 1, 2, 3].map (fun n => BitVec.ofNat 8 (byteOf n w))

/-- The bytes in which words cross the link (R62). -/
def linkBytes (words : List Word) : List Byte := words.flatMap bytesOfWord

/-- A word from its low and high halves. -/
def wordOfHalves (low high : Nat) : Word := BitVec.ofNat 32 (low + 65536 * high)

/-- The low word of a number held in two words. -/
def lowWord (n : Nat) : Word := BitVec.ofNat 32 n

/-- The high word of a number held in two words. -/
def highWord (n : Nat) : Word := BitVec.ofNat 32 (n / 4294967296)

/-- A 64-bit value from its low and high words (00_scope.md, R82). -/
def wordPair (low high : Word) : BitVec 64 := high ++ low

/-- W for a sector size (R2). -/
def SectorSize.wordCount : SectorSize → Nat
  | .bytes512 => 128
  | .bytes4096 => 1024

/-- The supported sector format of so many bytes, if it is one (R2). -/
def SectorSize.ofFormat (bytes : Nat) : Option SectorSize :=
  if bytes = 512 then some .bytes512 else if bytes = 4096 then some .bytes4096 else none

/-- Size code (R81, "Codes"). -/
def SectorSize.code : SectorSize → Nat
  | .bytes512 => 0
  | .bytes4096 => 1

/-- Pattern kind code (R63). -/
def PatternKind.code : PatternKind → Nat
  | .fill => 0
  | .pair => 1
  | .stream => 2
  | .invert => 3

/-- The pattern kind of a code that plan validation has let through (R63, R81). -/
def PatternKind.ofCode (c : Nat) : PatternKind :=
  if c = 0 then .fill else if c = 1 then .pair else if c = 2 then .stream else .invert

/-- Verify mode code (R83). -/
def VerifyMode.code : VerifyMode → Nat
  | .none => 0
  | .sampled => 1
  | .full => 2

/-- The verify mode of a code that plan validation has let through (R81, R83). -/
def VerifyMode.ofCode (c : Nat) : VerifyMode :=
  if c = 0 then .none else if c = 1 then .sampled else .full

/-- Fault action code, which is also its strength (R82, R151). -/
def Action.code : Action → Nat
  | .note => 0
  | .suspend => 1
  | .restart => 2
  | .fail => 3

/-- The fault action of a code that plan validation has let through (R81, R82). -/
def Action.ofCode (c : Nat) : Action :=
  if c = 0 then .note else if c = 1 then .suspend else if c = 2 then .restart else .fail

/-- Fault class code (R145). -/
def FaultClass.code : FaultClass → Nat
  | .writeMismatch => 1
  | .readMismatch => 2
  | .mediumError => 3
  | .foreignWrite => 4
  | .stall => 5
  | .defectOverrun => 6
  | .linkReset => 7

/-- The place of a class among the seven, from 0 (R145). -/
def FaultClass.place : FaultClass → Fin 7
  | .writeMismatch => 0
  | .readMismatch => 1
  | .mediumError => 2
  | .foreignWrite => 3
  | .stall => 4
  | .defectOverrun => 5
  | .linkReset => 6

/-- Refusal reason code (R81). -/
def RefusalReason.code : RefusalReason → Nat
  | .check => 16
  | .version => 17
  | .reserved => 18
  | .range => 19
  | .sector => 20
  | .passes => 21
  | .pattern => 22
  | .verify => 23
  | .action => 24
  | .notReady => 25

/-- Outcome code ("Codes"). -/
def RunOutcome.code : RunOutcome → Nat
  | .clean => 1
  | .exceptions => 2
  | .failed => 3
  | .halted => 4
  | .rejected => 5

/-- Reason code ("Codes"). -/
def Reason.code : Reason → Nat
  | .none => 0
  | .fault c => c.code
  | .halt => 9
  | .lateWrite => 10
  | .postWrite => 11
  | .refused r => r.code

/-- Issue flag code ("Codes"). -/
def IssueFlag.code : IssueFlag → Nat
  | .recorded => 0
  | .unrecorded => 1

/-- Pass status code ("Codes"). -/
def PassStatus.code : PassStatus → Nat
  | .notReached => 0
  | .incomplete => 1
  | .complete => 2

/-- Defect kind code ("Codes"). -/
def DefectKind.code : DefectKind → Nat
  | .writeFail => 1
  | .readFail => 2
  | .mismatch => 3

end Sys2Proof.Machine
end

