-- ==== Sys2Proof/Machine/Ops.lean ====
section
/-! DEFINITION. The named updates of the state: one lane, one block of a lane, one link. -/

namespace Sys2Proof.Machine

/-- Lane `l` of the part. -/
def State.lane (s : State) (l : LaneId) : Lane := s.lanes[l.val]

/-- The part with lane `l` replaced. -/
def State.setLane (s : State) (l : LaneId) (x : Lane) : State :=
  { s with lanes := s.lanes.set l.val x }

/-- The part with lane `l` changed by `f`. -/
def State.modifyLane (s : State) (l : LaneId) (f : Lane → Lane) : State :=
  s.setLane l (f (s.lane l))

/-- The link of lane `l`. -/
def State.link (s : State) (l : LaneId) : Link := s.links[l.val]

/-- The part with one more item forwarded on the link of lane `l`, after all forwarded before it in that
direction (R8). -/
def State.forward (s : State) (l : LaneId) (d : Direction) (t : Traffic) : State :=
  match d with
  | .towardDrive =>
    { s with links := s.links.set l.val { s.link l with toDrive := (s.link l).toDrive ++ [t] } }
  | .towardStation =>
    { s with links := s.links.set l.val { s.link l with toStation := (s.link l).toStation ++ [t] } }

/-- A lane with its tap changed. -/
def Lane.modifyTap (x : Lane) (f : Tap → Tap) : Lane := { x with tap := f x.tap }

/-- A lane with its tracker changed. -/
def Lane.modifyTracker (x : Lane) (f : Tracker → Tracker) : Lane := { x with tracker := f x.tracker }

/-- A lane with its part of the Capture Pool changed. -/
def Lane.modifyCapture (x : Lane) (f : Capture → Capture) : Lane := { x with capture := f x.capture }

/-- A lane with its Run Controller changed. -/
def Lane.modifyRun (x : Lane) (f : RunControl → RunControl) : Lane := { x with run := f x.run }

/-- A drive of a supported format is on the link (R2). -/
def Lane.present (x : Lane) : Bool := x.tap.sectorSize.isSome

/-- The tap holds the lane while either hold reason is set (R9). -/
def Lane.held (x : Lane) : Bool := x.tap.trigger || x.tap.poolReason

/-- The taps take events: supply is present and the reset input is not asserted (R180). -/
def State.listening (s : State) : Bool := s.powered && !s.inReset

/-- The tap of lane `l` takes events: a drive is PRESENT there (R1, R5, R6, R7, R180). -/
def State.takesEvents (s : State) (l : LaneId) : Bool := s.listening && (s.lane l).present

/-- A run is active in RUNNING, SUSPENDED and CLOSING (02_command_tracking.md). -/
def RunState.active : RunState → Bool
  | .running | .suspended | .closing => true
  | .detached | .idle | .issuing | .issued | .rejected => false

/-- Faults are handled in RUNNING and SUSPENDED (R149). -/
def RunState.handlesFaults : RunState → Bool
  | .running | .suspended => true
  | .detached | .idle | .closing | .issuing | .issued | .rejected => false

/-- The number of sectors of the target range (00_scope.md, "The target range"). -/
def Plan.sectorCount (p : Plan) : Nat := p.last + 1 - p.first

/-- LBA `a` is in the plan's target range. -/
def Plan.inRange (p : Plan) (a : Nat) : Bool := decide (p.first ≤ a) && decide (a ≤ p.last)

/-- LBA `a` is in the lane's target range. In IDLE and REJECTED there is no plan record and no range (R28). -/
def RunControl.inRange (c : RunControl) (a : Nat) : Bool :=
  match c.plan with
  | some p => p.inRange a
  | none => false

/-- The stamp a command takes when it is accepted: the current stamp when a run is active, else *none* (R19). -/
def RunControl.stampForCommand (c : RunControl) : Option Stamp :=
  if c.state.active then c.current else none

/-- A record's stamp is current when it equals the run's (pass index, attempt). *None* is never current
(02_command_tracking.md). -/
def RunControl.isCurrent (c : RunControl) (stamp : Option Stamp) : Bool :=
  match stamp with
  | none => false
  | some t => decide (c.current = some t)

/-- The start LBA of a tracked command. A FLUSH addresses no sector. -/
def Operation.start : Operation → Nat
  | .read start _ | .write start _ | .discard start _ => start
  | .flush _ => 0

/-- The number of sectors a tracked command addresses: none for a FLUSH. -/
def Operation.count : Operation → Nat
  | .read _ count | .write _ count | .discard _ count => count
  | .flush _ => 0

/-- The record is a WRITE. -/
def Operation.isWrite : Operation → Bool
  | .write _ _ => true
  | .read _ _ | .flush _ | .discard _ _ => false

/-- The record with a tag, if the tag is pending (R18: no two records carry the same tag). -/
def Tracker.find (t : Tracker) (tag : Tag) : Option Record :=
  t.records.find? (fun r => decide (r.tag = tag))

/-- The table with the record of tag `r.tag` replaced by `r`. -/
def Tracker.replace (t : Tracker) (r : Record) : Tracker :=
  { t with records := t.records.map (fun q => if q.tag = r.tag then r else q) }

/-- The table without the record of a tag. -/
def Tracker.remove (t : Tracker) (tag : Tag) : Tracker :=
  { t with records := t.records.filter (fun q => decide (q.tag ≠ tag)) }

/-- The untracked counter increased by `n`, saturating at 65535 (R21, R39). -/
def Tracker.countUntracked (t : Tracker) (n : Nat) : Tracker :=
  { t with untracked := saturate Config.max16 (t.untracked + n) }

end Sys2Proof.Machine
end

