-- ==== Sys2Proof/Machine/Operands.lean ====
section
/-! DEFINITION. The parts of a retired command: the division of its sectors by its completion (R28), and what
each captured entry says of its sector. -/

namespace Sys2Proof.Machine

/-- The LBAs a command addresses, in increasing order, formed exactly (R5). -/
def Operation.sectors (o : Operation) : List Nat := List.range' o.start o.count

/-- How a completion divides a command's sectors (R28): all good, an error sector inside the command, or an
ERROR that places no sector. -/
inductive Division where
  | whole
  | placed (errorSector : Nat)
  | unplaced
  deriving DecidableEq, Repr

/-- The command addresses LBA `a`. -/
def Operation.addresses (o : Operation) (a : Nat) : Bool :=
  decide (o.start ≤ a) && decide (a < o.start + o.count)

/-- The division of a record's command (R28). A retiring record has a completion (R26). -/
def Record.division (r : Record) : Division :=
  match r.completion with
  | some ⟨.good, _⟩ => .whole
  | some ⟨.error, some e⟩ => if r.operation.addresses e then .placed e else .unplaced
  | some ⟨.error, none⟩ => .unplaced
  | none => .unplaced

/-- The completion's status is ERROR. -/
def Record.failed (r : Record) : Bool :=
  match r.completion with
  | some ⟨.error, _⟩ => true
  | _ => false

/-- The completion's status is GOOD. -/
def Record.succeeded (r : Record) : Bool :=
  match r.completion with
  | some ⟨.good, _⟩ => true
  | _ => false

/-- LBA `a` of the command is in its good part (R28). -/
def Division.good (d : Division) (a : Nat) : Bool :=
  match d with
  | .whole => true
  | .placed e => decide (a < e)
  | .unplaced => false

/-- LBA `a` of the command is in its tail (R28). -/
def Division.tail (d : Division) (a : Nat) : Bool :=
  match d with
  | .whole => false
  | .placed e => decide (e < a)
  | .unplaced => false

/-- The error sector, where there is one (R28). -/
def Division.errorSector : Division → Option Nat
  | .placed e => some e
  | .whole | .unplaced => none

/-- What retirement makes of one sector's entry (R29, R38). -/
inductive SectorFinding where
  | matched
  | mismatched
  | notCaptured
  | setAside
  deriving DecidableEq, Repr

/-- What an entry's comparison outcome says. -/
def Comparison.finding : Comparison → SectorFinding
  | .matched => .matched
  | .mismatched => .mismatched

/-- The finding of an entry. A marker that is taken is set aside; one not taken is data, by its comparison
outcome (R29, R38). No entry is PENDING at retirement (R26): the case is answered as NOT-CAPTURED (log 22). -/
def Entry.finding (taken : Bool) : Entry → SectorFinding
  | .notCaptured => .notCaptured
  | .pending => .notCaptured
  | .compared c => c.finding
  | .marker _ c => if taken then .setAside else c.finding

/-- Each sector the record has an entry for, in increasing LBA order, with its finding. `takenIndex` is the sector
index of the taken marker, if one is taken. -/
def Record.findings (r : Record) (takenIndex : Option Nat) : List (Nat × SectorFinding) :=
  r.entries.zipIdx.map
    (fun q => (r.operation.start + q.2, q.1.finding (decide (takenIndex = some q.2))))

/-- The in-range sectors of the good part whose finding is `f`, in increasing order (R29, R32). -/
def Record.goodSectors (r : Record) (takenIndex : Option Nat) (inRange : Nat → Bool)
    (f : SectorFinding) : List Nat :=
  ((r.findings takenIndex).filter
    (fun q => inRange q.1 && r.division.good q.1 && decide (q.2 = f))).map Prod.fst

/-- The in-range sectors of the tail, in increasing order (R28). -/
def Record.tailSectors (r : Record) (inRange : Nat → Bool) : List Nat :=
  r.operation.sectors.filter (fun a => inRange a && r.division.tail a)

/-- The in-range part of a command, in increasing order (R28). -/
def Record.inRangePart (r : Record) (inRange : Nat → Bool) : List Nat :=
  r.operation.sectors.filter inRange

/-- The error sector, where it is in range (R33). -/
def Record.inRangeError (r : Record) (inRange : Nat → Bool) : Option Nat :=
  r.division.errorSector.filter inRange

/-- The lowest sector of the foreign part: outside the target range, and not the anchor (R28, R31). -/
def Record.lowestForeign (r : Record) (inRange : Nat → Bool) (anchor : Option Nat) : Option Nat :=
  r.operation.sectors.find? (fun a => !inRange a && decide (anchor ≠ some a))

/-- The LBA of marker sector `index` of a command (R74). -/
def Operation.lbaAt (o : Operation) (index : Nat) : Nat := o.start + index

end Sys2Proof.Machine
end

