-- ==== Sys2Proof/Machine/CoverageMap.lean ====
section
/-! DEFINITION. The Coverage Map (06_the_coverage_map.md): extents, write and verify credit, removal and its
widening, flush promotion, the removal of CACHED extents, and the totals the map hands on. Sets of sectors are
lists of LBAs in increasing order. -/

namespace Sys2Proof.Machine

/-- A run of consecutive LBAs, both ends included. -/
structure Span where
  first : Nat
  last : Nat
  deriving DecidableEq, Repr

/-- The maximal runs of an increasing list of LBAs. -/
def spansOf : List Nat → List Span
  | [] => []
  | a :: rest =>
    match spansOf rest with
    | [] => [⟨a, a⟩]
    | t :: more => if t.first = a + 1 then ⟨a, t.last⟩ :: more else ⟨a, a⟩ :: t :: more

/-- The extent contains LBA `a`. -/
def Extent.contains (x : Extent) (a : Nat) : Bool := decide (x.first ≤ a) && decide (a ≤ x.last)

/-- The number of sectors an extent holds. -/
def Extent.size (x : Extent) : Nat := x.last + 1 - x.first

/-- The condition of LBA `a`: the credit of the extent that contains it, or absent when untouched (R88). -/
def conditionOf (m : List Extent) (a : Nat) : Option Credit :=
  (m.find? (fun x => x.contains a)).map Extent.credit

/-- What an extent keeps when the sectors of one span are cut out: nothing, one piece, or two (R98, R99). -/
def Extent.cut (t : Span) (x : Extent) : List Extent :=
  if x.last < t.first ∨ t.last < x.first then [x]
  else
    (if x.first < t.first then [{ x with last := t.first - 1 }] else []) ++
    (if t.last < x.last then [{ x with first := t.last + 1 }] else [])

/-- The map with the sectors of some spans cut out exactly (R98). -/
def cutSpans (ts : List Span) (m : List Extent) : List Extent :=
  ts.foldl (fun acc t => acc.flatMap (Extent.cut t)) m

/-- An extent put in its place in the order by first LBA (R90). -/
def insertExtent (x : Extent) : List Extent → List Extent
  | [] => [x]
  | y :: rest => if x.first < y.first then x :: y :: rest else y :: insertExtent x rest

/-- The credit of two touching extents as one: only in one state, and CACHED with the larger epoch (R90). -/
def Credit.join : Credit → Credit → Option Credit
  | .cached a, .cached b => some (.cached (max a b))
  | .written, .written => some .written
  | .verified, .verified => some .verified
  | _, _ => none

/-- Put an extent before a merged list, joining it with the first extent where they touch in one state (R90). -/
def absorb (x : Extent) : List Extent → List Extent
  | [] => [x]
  | y :: rest =>
    if x.last + 1 = y.first then
      match x.credit.join y.credit with
      | some c => ⟨x.first, y.last, c⟩ :: rest
      | none => x :: y :: rest
    else x :: y :: rest

/-- Each maximal run of consecutive sectors in one state made one extent (R90). -/
def mergeExtents : List Extent → List Extent
  | [] => []
  | x :: rest => absorb x (mergeExtents rest)

/-- The list in which the sectors of a set have taken the condition `c`, merged: what a credit *needs* (R90). -/
def grantCredit (sectors : List Nat) (c : Credit) (m : List Extent) : List Extent :=
  mergeExtents
    ((spansOf sectors).foldl (fun acc t => insertExtent ⟨t.first, t.last, c⟩ acc)
      (cutSpans (spansOf sectors) m))

/-- A credit removal: exact where that needs at most 64 extents, and otherwise with every extent it splits
removed whole (R98, R99). -/
def removeCredit (sectors : List Nat) (m : List Extent) : List Extent :=
  if (cutSpans (spansOf sectors) m).length ≤ Config.extentLimit then cutSpans (spansOf sectors) m
  else
    m.flatMap (fun x =>
      if 2 ≤ (cutSpans (spansOf sectors) [x]).length then [] else cutSpans (spansOf sectors) [x])

/-- The written count: sectors in WRITTEN and VERIFIED extents (R106). -/
def writtenCount (m : List Extent) : Nat :=
  (m.map (fun x => match x.credit with
    | .cached _ => 0
    | .written => x.size
    | .verified => x.size)).sum

/-- The verified count: sectors in VERIFIED extents (R106). -/
def verifiedCount (m : List Extent) : Nat :=
  (m.map (fun x => match x.credit with
    | .cached _ => 0
    | .written => 0
    | .verified => x.size)).sum

/-- The written count of a lane's map. -/
def Coverage.writtenCount (m : Coverage) : Nat := Machine.writtenCount m.extents

/-- The verified count of a lane's map. -/
def Coverage.verifiedCount (m : Coverage) : Nat := Machine.verifiedCount m.extents

/-- The uncredited counter increased by `n`, saturating (R108). -/
def Coverage.countUncredited (n : Nat) (m : Coverage) : Coverage :=
  { m with uncredited := saturate Config.max32 (m.uncredited + n) }

/-- A credit removal handed to a lane's map (R98, R99). -/
def Coverage.remove (sectors : List Nat) (m : Coverage) : Coverage :=
  { m with extents := removeCredit sectors m.extents }

/-- A map after an operation, and whether the operation was a credit event (R106). -/
structure MapResult where
  coverage : Coverage
  creditEvent : Bool
  deriving DecidableEq, Repr

/-- The condition a write credit gives: CACHED with epoch E under flush flag 1, else WRITTEN (R93). -/
def writeCreditState (flush : Bool) (epoch : Nat) : Credit :=
  if flush then .cached epoch else .written

/-- A write credit of the credited set `sectors`, listed defects already left out (R93, R94, R95, R106). -/
def Coverage.writeCredit (flush : Bool) (epoch : Nat) (sectors : List Nat) (m : Coverage) : MapResult :=
  if sectors = [] then ⟨m, false⟩
  else if (grantCredit sectors (writeCreditState flush epoch) m.extents).length ≤ Config.extentLimit then
    ⟨{ m with extents := grantCredit sectors (writeCreditState flush epoch) m.extents },
      flush || decide (Machine.writtenCount m.extents <
        Machine.writtenCount (grantCredit sectors (writeCreditState flush epoch) m.extents))⟩
  else ⟨(m.remove sectors).countUncredited sectors.length, false⟩

/-- The sectors of a set that are WRITTEN at that moment (R96). -/
def writtenSectors (sectors : List Nat) (m : List Extent) : List Nat :=
  sectors.filter (fun a => decide (conditionOf m a = some .written))

/-- A verify credit of the set `sectors` (R96, R97, R106). -/
def Coverage.verifyCredit (sectors : List Nat) (m : Coverage) : MapResult :=
  if writtenSectors sectors m.extents = [] then ⟨m, false⟩
  else if (grantCredit (writtenSectors sectors m.extents) .verified m.extents).length ≤ Config.extentLimit then
    ⟨{ m with extents := grantCredit (writtenSectors sectors m.extents) .verified m.extents }, true⟩
  else ⟨m.countUncredited (writtenSectors sectors m.extents).length, false⟩

/-- A CACHED extent whose epoch is at or below the flush number becomes WRITTEN (R101). -/
def Extent.promote (number : Nat) (x : Extent) : Extent :=
  match x.credit with
  | .cached e => if e ≤ number then { x with credit := .written } else x
  | .written => x
  | .verified => x

/-- A flush promotion. A flush number at its maximum promotes nothing (R20, R101). -/
def Coverage.promote (number : Nat) (m : Coverage) : MapResult :=
  if number = Config.max32 then ⟨m, false⟩
  else
    ⟨{ m with extents := mergeExtents (m.extents.map (Extent.promote number)) },
      m.extents.any (fun x => decide (x.promote number ≠ x))⟩

/-- The extent is CACHED. -/
def Extent.isCached (x : Extent) : Bool :=
  match x.credit with
  | .cached _ => true
  | .written => false
  | .verified => false

/-- The removal of every CACHED extent at a LINK RESET (R104). -/
def Coverage.dropCached (m : Coverage) : Coverage :=
  { m with extents := m.extents.filter (fun x => !x.isCached) }

/-- A clear, which leaves the uncredited counter as it stands (R103). -/
def Coverage.clear (m : Coverage) : Coverage := { m with extents := [] }

end Sys2Proof.Machine
end

