-- ==== Sys2Proof/Machine/Defects.lean ====
section
/-! DEFINITION. The Defect List (07_defects_and_completeness.md): additions, DEFECT_OVERRUN, and the counting of
samples. -/

namespace Sys2Proof.Machine

/-- The entry holds LBA `a`. -/
def DefectEntry.holds (e : DefectEntry) (a : Nat) : Bool :=
  decide (e.first ≤ a) && decide (a < e.first + e.count)

/-- LBA `a` is listed. -/
def DefectList.lists (d : DefectList) (a : Nat) : Bool := d.entries.any (fun e => e.holds a)

/-- The entry has kind `k` and pass `p`. -/
def DefectEntry.is (e : DefectEntry) (k : DefectKind) (p : Nat) : Bool :=
  decide (e.kind = k) && decide (e.pass = p)

/-- An entry joined with the one that begins right after it, where they share kind and pass and their counts
together are at most 65535 (R112, case 1). -/
def joinNext (e : DefectEntry) : List DefectEntry → List DefectEntry
  | [] => [e]
  | f :: rest =>
    if f.first = e.first + e.count ∧ f.is e.kind e.pass ∧ e.count + f.count ≤ Config.entryCountMax then
      { e with count := e.count + f.count } :: rest
    else e :: f :: rest

/-- Case 1 of R112: an entry of kind `k` and pass `p` that ends at `a` − 1 takes `a`. -/
def extendUpward (a : Nat) (k : DefectKind) (p : Nat) : List DefectEntry → Option (List DefectEntry)
  | [] => none
  | e :: rest =>
    if e.first + e.count = a ∧ e.is k p ∧ e.count < Config.entryCountMax then
      some (joinNext { e with count := e.count + 1 } rest)
    else (extendUpward a k p rest).map (e :: ·)

/-- Case 2 of R112: an entry of kind `k` and pass `p` that begins at `a` + 1 takes `a`. -/
def extendDownward (a : Nat) (k : DefectKind) (p : Nat) : List DefectEntry → Option (List DefectEntry)
  | [] => none
  | e :: rest =>
    if e.first = a + 1 ∧ e.is k p ∧ e.count < Config.entryCountMax then
      some ({ e with first := a, count := e.count + 1 } :: rest)
    else (extendDownward a k p rest).map (e :: ·)

/-- An entry put in its place in the order by first LBA (R112, case 3). -/
def insertEntry (x : DefectEntry) : List DefectEntry → List DefectEntry
  | [] => [x]
  | y :: rest => if x.first < y.first then x :: y :: rest else y :: insertEntry x rest

/-- The entries with sector `a`, which none of them holds, added: the first case of R112 that fits, or absent
when there is no room (case 4). -/
def listSector (a : Nat) (k : DefectKind) (p : Nat) (es : List DefectEntry) : Option (List DefectEntry) :=
  match extendUpward a k p es with
  | some es' => some es'
  | none =>
    match extendDownward a k p es with
    | some es' => some es'
    | none => if es.length < Config.entryLimit then some (insertEntry ⟨a, 1, k, p⟩ es) else none

/-- A lane with the faults a retirement has raised on it so far. -/
structure Handover where
  lane : Lane
  faults : List LaneFault
  deriving DecidableEq, Repr

/-- The lane's defect allowance. It applies only while there is a plan record (R115). -/
def RunControl.passesAllowance (c : RunControl) (total : Nat) : Bool :=
  match c.plan with
  | some p => decide (total = p.allowance)
  | none => false

/-- The DEFECT_OVERRUN of one addition, if it is one of the two occasions of R116. -/
def overrunFault (raised : Bool) (a : Nat) : List LaneFault :=
  if raised then [⟨.defectOverrun, some a⟩] else []

/-- One addition to the Defect List, with the credit removal of its sector and its DEFECT_OVERRUN (R100, R111,
R112, R113, R116). A sector already held changes nothing. -/
def addDefect (k : DefectKind) (p : Nat) (h : Handover) (a : Nat) : Handover :=
  if h.lane.defects.lists a then h
  else
    match listSector a k p h.lane.defects.entries with
    | some es =>
      { lane :=
          { h.lane with
            defects :=
              { h.lane.defects with
                entries := es
                total := saturate Config.max32 (h.lane.defects.total + 1) }
            coverage := h.lane.coverage.remove [a] }
        faults := h.faults ++ overrunFault (h.lane.run.passesAllowance h.lane.defects.total) a }
    | none =>
      { lane :=
          { h.lane with
            defects :=
              { h.lane.defects with unlisted := saturate Config.max32 (h.lane.defects.unlisted + 1) }
            coverage := h.lane.coverage.remove [a] }
        faults := h.faults ++ overrunFault (decide (h.lane.defects.unlisted = 0)) a }

/-- The additions of one retirement, one at a time in increasing LBA order (R111). -/
def addDefects (k : DefectKind) (p : Nat) (sectors : List Nat) (h : Handover) : Handover :=
  sectors.foldl (addDefect k p) h

/-! ## Samples (R117, R118) -/

/-- C(n − 1): the number of offsets below `n` that the stride counts (R118). -/
def strideCount (stride phase n : Nat) : Nat :=
  if n ≤ phase then 0 else (n - 1 - phase) / stride + 1

/-- The number of samples at offsets from `u` to `v` of a range of `n` sectors (R118). -/
def sampleCount (stride phase n u v : Nat) : Nat :=
  strideCount stride phase (v + 1) - strideCount stride phase u
    + (if u = 0 ∧ phase ≠ 0 then 1 else 0)
    + (if v + 1 = n ∧ n ≠ 1 ∧ (n - 1) % stride ≠ phase then 1 else 0)

/-- The total samples T of a pass over a range of `n` sectors (R117, R118). -/
def totalSamples (stride phase n : Nat) : Nat := sampleCount stride phase n 0 (n - 1)

/-- The samples held in VERIFIED extents and in defect entries (R120). -/
def samplesHeld (stride phase first n : Nat) (m : List Extent) (es : List DefectEntry) : Nat :=
  ((m.filter (fun x => decide (x.credit = .verified))).map
    (fun x => sampleCount stride phase n (x.first - first) (x.last - first))).sum
  + (es.map (fun e => sampleCount stride phase n (e.first - first) (e.first + e.count - 1 - first))).sum

end Sys2Proof.Machine
end

