-- ==== Sys2Proof/Machine/Pattern.lean ====
section
/-! DEFINITION. The Pattern Generator (04_expected_content.md) and what the Compare Engine finds in a captured
sector (R55, R56, R70). -/

namespace Sys2Proof.Machine

/-- The start value of sector `lba` of a STREAM pass (R66). -/
def streamStart (seed : Word) (lba : Nat) : Word := BitVec.ofNat 32 (seed.toNat + 40503 * lba)

/-- The step from one word of a STREAM sequence to the next (R67). -/
def streamNext (w : Word) : Word := BitVec.ofNat 32 (w.toNat * 69069 + 1)

/-- Word `k` of sector `lba` of a STREAM pass (R67). -/
def streamWord (seed : Word) (lba : Nat) : Nat → Word
  | 0 => streamNext (streamStart seed lba)
  | k + 1 => streamNext (streamWord seed lba k)

/-- The expected word of the pass whose definition is first in the list, the definitions of the passes before it
following, nearest first (R63 to R68). Absent where no definition is left to ask: plan validation refuses an
INVERT in pass 1, so every chain ends at a definition. -/
def expectedFrom (lba k : Nat) : List PassDef → Option Word
  | [] => none
  | d :: earlier =>
    match d.kind with
    | .fill => some d.operand1
    | .pair => some (if (k + lba) % 2 = 0 then d.operand1 else d.operand2)
    | .stream => some (streamWord d.operand1 lba k)
    | .invert => (expectedFrom lba k earlier).map (fun w => BitVec.ofNat 32 (4294967295 - w.toNat))

/-- The expected word e(p, L, k) of pass `p`, sector `lba`, word `k` under the pass definitions `passes` (R61). -/
def expectedWord (passes : List PassDef) (p lba k : Nat) : Option Word :=
  expectedFrom lba k (passes.take p).reverse

/-- Every one of the W words equals its expected word (R56, R70). -/
def sectorMatches (p : Plan) (pass lba : Nat) (words : List Word) : Bool :=
  (List.range p.size.wordCount).all
    (fun k =>
      match expectedWord p.passes pass lba k with
      | some w => decide (words[k]? = some w)
      | none => false)

/-- The job's direction fits its record's kind (R56). -/
def Operation.fits : Operation → Direction → Bool
  | .write _ _, .towardDrive => true
  | .read _ _, .towardStation => true
  | _, _ => false

/-- The comparison outcome of a job in its context: MATCH for a job that is not compared (R56, R70, R71). -/
def compareSector (context : Option GrantContext) (direction : Direction) (words : List Word) :
    Comparison :=
  match context with
  | none => .matched
  | some c =>
    match c.stamp, c.plan with
    | some t, some p =>
      if p.inRange c.lba && c.operation.fits direction then
        if sectorMatches p t.pass c.lba words then .matched else .mismatched
      else .matched
    | _, _ => .matched

/-- A sector written toward the drive whose words 0 and 1 carry the signature (R55). -/
def isMarkerSector (direction : Direction) (words : List Word) : Bool :=
  decide (direction = .towardDrive) && decide (words[0]? = some Config.signature0)
    && decide (words[1]? = some Config.signature1)

/-- The kind of a marker: byte 0 of word 2 (R55). -/
def markerKind (words : List Word) : Nat := byteOf 0 (wordAt words 2)

/-- The entry a job's result puts in its record (R55, R57). -/
def jobVerdict (context : Option GrantContext) (direction : Direction) (words : List Word) : Entry :=
  if isMarkerSector direction words then
    .marker (markerKind words) (compareSector context direction words)
  else .compared (compareSector context direction words)

end Sys2Proof.Machine
end

