-- ==== Sys2Proof/Machine/Markers.lean ====
section
/-! DEFINITION. Markers and plans (05_markers_and_plans.md): the judgement of a candidate marker, the validation of
a plan in the order of R81, and the decoding of its fields at the places R173 gives. -/

namespace Sys2Proof.Machine

/-- The kinds of marker that can be taken (R73). -/
inductive MarkerKind where
  | plan
  | resume
  | halt
  | release
  deriving DecidableEq, Repr

/-- The marker kind of a code. REPORT (8) and unknown codes are data (R73). -/
def MarkerKind.ofCode (c : Nat) : Option MarkerKind :=
  if c = 1 then some .plan
  else if c = 2 then some .resume
  else if c = 3 then some .halt
  else if c = 4 then some .release
  else none

/-- The run states in which a kind is taken (R74). -/
def MarkerKind.admittedIn : MarkerKind → RunState → Bool
  | .plan, .idle | .plan, .rejected | .plan, .issued => true
  | .resume, .suspended => true
  | .halt, .running | .halt, .suspended => true
  | .release, .issued | .release, .rejected => true
  | _, _ => false

/-- The run id carried by words 3 and 4 (R75, R82). -/
def markerRunId (words : List Word) : BitVec 64 := wordPair (wordAt words 3) (wordAt words 4)

/-- A valid control marker: check rule over words 0 to 7, version 1, and the zero fields (R75, R174). -/
def validControlMarker (words : List Word) : Bool :=
  decide (sumWords (words.take 8) = 0) && decide (byteOf 1 (wordAt words 2) = 1)
    && decide (byteOf 2 (wordAt words 2) = 0) && decide (byteOf 3 (wordAt words 2) = 0)
    && decide (wordAt words 5 = 0) && decide (wordAt words 6 = 0)

/-- A taken marker: its kind, the words kept with the record, its sector's index and LBA (R27, R74). -/
structure TakenMarker where
  kind : MarkerKind
  words : List Word
  index : Nat
  lba : Nat
  deriving DecidableEq, Repr

/-- The place and the tests of a kind beyond the run state (R74): none for a PLAN. -/
def MarkerKind.passesTests (k : MarkerKind) (c : RunControl) (words : List Word) (lba : Nat) : Bool :=
  match k with
  | .plan => true
  | .resume | .halt | .release =>
    decide (c.anchor = some lba) && validControlMarker words && decide (c.runId = some (markerRunId words))

/-- The judgement of a candidate marker at step 1 of retirement: the marker taken, or absent when it is data
(R27, R38, R74). -/
def judgeMarker (c : RunControl) (r : Record) : Option TakenMarker :=
  match r.marker with
  | none => none
  | some m =>
    match MarkerKind.ofCode (markerKind m.words) with
    | none => none
    | some k =>
      if r.operation.isWrite && r.succeeded && k.admittedIn c.state
          && k.passesTests c m.words (r.operation.lbaAt m.index) then
        some ⟨k, m.words, m.index, r.operation.lbaAt m.index⟩
      else none

/-! ## Plan validation (R81, R82, R173) -/

/-- The pass count of a plan sector (R173, word 9). -/
def planPassCount (w : List Word) : Nat := byteOf 1 (wordAt w 9)

/-- The first word of pass definition `i`, counted from 0 (R173). -/
def passWord (w : List Word) (i j : Nat) : Word := wordAt w (13 + 4 * i + j)

/-- Test 4: a field that must be zero is not, or the flush flag is neither 0 nor 1 (R81, R82). It covers the pass
definitions up to the pass count, all four when the count is above 4. -/
def reservedFieldBad (w : List Word) : Bool :=
  decide (highHalf (wordAt w 2) ≠ 0) || decide (byteOf 3 (wordAt w 10) ≠ 0)
    || decide (byteOf 3 (wordAt w 12) ≠ 0)
    || (List.range (min (planPassCount w) 4)).any (fun i => decide (highHalf (passWord w i 0) ≠ 0))
    || decide (wordAt w 30 ≠ 0) || decide (wordAt w 31 ≠ 0)
    || decide (1 < byteOf 2 (wordAt w 9))

/-- Test 5: the size code names no size, or another than the lane's (R81). -/
def sizeBad (size : SectorSize) (w : List Word) : Bool := decide (byteOf 0 (wordAt w 9) ≠ size.code)

/-- The first LBA of a plan (R173, words 5 and 6). -/
def planFirst (w : List Word) : Nat := (wordAt w 5).toNat + 4294967296 * (wordAt w 6).toNat

/-- The last LBA of a plan (R173, words 7 and 8). -/
def planLast (w : List Word) : Nat := (wordAt w 7).toNat + 4294967296 * (wordAt w 8).toNat

/-- Test 6: a high word of 65536 or more, or last LBA below first LBA (R81). -/
def rangeBad (w : List Word) : Bool :=
  decide (65536 ≤ (wordAt w 6).toNat) || decide (65536 ≤ (wordAt w 8).toNat)
    || decide (planLast w < planFirst w)

/-- Test 7: the pass count is not 1, 2, 3 or 4 (R81). -/
def passCountBad (w : List Word) : Bool := decide (planPassCount w = 0) || decide (4 < planPassCount w)

/-- Test 8: a pass within the count has a kind above 3, or pass 1 is INVERT (R81). -/
def patternBad (w : List Word) : Bool :=
  (List.range (planPassCount w)).any (fun i => decide (3 < byteOf 0 (passWord w i 0)))
    || decide (byteOf 0 (passWord w 0 0) = 3)

/-- Test 9: a pass within the count has a verify mode above 2, or is SAMPLED with a stride below 2 or a phase not
below the stride (R81, R83). -/
def verifyBad (w : List Word) : Bool :=
  (List.range (planPassCount w)).any (fun i =>
    decide (2 < byteOf 1 (passWord w i 0))
      || (decide (byteOf 1 (passWord w i 0) = 1)
        && (decide (lowHalf (passWord w i 3) < 2)
          || decide (lowHalf (passWord w i 3) ≤ highHalf (passWord w i 3)))))

/-- The code of the fault action of the class at place `i` (R173, words 11 and 12). -/
def actionCode (w : List Word) (i : Nat) : Nat :=
  if i < 4 then byteOf i (wordAt w 11) else byteOf (i - 4) (wordAt w 12)

/-- Test 10: any of the seven fault actions is above 3 (R81). -/
def actionBad (w : List Word) : Bool := (List.range 7).any (fun i => decide (3 < actionCode w i))

/-- The reason of the first test the plan fails, in the order of R81, or absent when it passes all ten.
`readEnded` says whether the Issue Store has completed its start-up read, `size` is the lane's sector size. -/
def planFailure (readEnded : Bool) (size : SectorSize) (w : List Word) : Option RefusalReason :=
  if !readEnded then some .notReady
  else if sumWords (w.take 32) ≠ 0 then some .check
  else if byteOf 1 (wordAt w 2) ≠ 1 then some .version
  else if reservedFieldBad w then some .reserved
  else if sizeBad size w then some .sector
  else if rangeBad w then some .range
  else if passCountBad w then some .passes
  else if patternBad w then some .pattern
  else if verifyBad w then some .verify
  else if actionBad w then some .action
  else none

/-- Pass definition `i`, counted from 0, of a plan that passes its tests (R82, R173). -/
def decodePass (w : List Word) (i : Nat) : PassDef where
  kind := .ofCode (byteOf 0 (passWord w i 0))
  verify := .ofCode (byteOf 1 (passWord w i 0))
  operand1 := passWord w i 1
  operand2 := passWord w i 2
  stride := lowHalf (passWord w i 3)
  phase := highHalf (passWord w i 3)

/-- A value above `n` taken as `n` (R84). -/
def clampFin (n v : Nat) : Fin (n + 1) := ⟨min v n, by omega⟩

/-- The plan record of a plan that passes its tests, decoded and clamped (R82, R84, R173). -/
def decodePlan (size : SectorSize) (w : List Word) : Plan where
  runId := markerRunId w
  first := planFirst w
  last := planLast w
  size := size
  flush := decide (byteOf 2 (wordAt w 9) = 1)
  pacing := clampFin 3 (byteOf 3 (wordAt w 9))
  stall := clampFin 7 (byteOf 2 (wordAt w 10))
  allowance := lowHalf (wordAt w 10)
  actions := Vector.ofFn (fun i : Fin 7 => Action.ofCode (actionCode w i.val))
  passes := (List.range (planPassCount w)).map (decodePass w)

end Sys2Proof.Machine
end

