-- ==== Sys2Proof/Machine/Report.lean ====
section
/-! DEFINITION. The report sector (R168 to R172, R175): the words of a certificate and of a rejection report, and
the check word. -/

namespace Sys2Proof.Machine

/-- Word 2 of a report: kind REPORT, version 1, outcome, reason (R175). -/
def reportWord2 (outcome reason : Nat) : Word := wordOfBytes 8 1 outcome reason

/-- The seven words of pass record `number` (R175). -/
def passRecordWords (number : Nat) (p : PassRecord) : List Word :=
  [wordOfBytes number p.kind.code p.verify.code p.status.code,
   wordOfBytes p.attempts 0 0 0,
   lowWord p.written, highWord p.written,
   lowWord p.verified, highWord p.verified,
   lowWord p.seconds]

/-- The three words of a defect entry place (R175). -/
def defectEntryWords (e : DefectEntry) : List Word :=
  [lowWord e.first, highWord e.first,
   BitVec.ofNat 32 (e.count + 65536 * e.kind.code + 16777216 * e.pass)]

/-- The 72 words of the 24 defect entry places, those after the last entry 0 (R169, R175). -/
def defectPlaceWords (es : List DefectEntry) : List Word :=
  (es.flatMap defectEntryWords ++ List.replicate 72 0).take 72

/-- The words of the first-fault record: word 13 and the two of its LBA (R169, R175). -/
def firstFaultWords : Option FirstFault → List Word
  | none => [0, 0, 0]
  | some f =>
    match f.lba with
    | none => [wordOfBytes f.cls.code f.pass 0 0, 0, 0]
    | some a => [wordOfBytes f.cls.code f.pass 1 0, lowWord a, highWord a]

/-- Words 0 to 126 of a certificate (R168, R175). -/
def Certificate.body (c : Certificate) : List Word :=
  [Config.signature0, Config.signature1,
   reportWord2 c.verdict.outcome.code c.verdict.reason.code,
   c.unitNumber.setWidth 32, (c.unitNumber >>> 32).setWidth 32,
   lowWord c.issueNumber,
   wordOfBytes c.flag.code c.size.code c.passCount c.passesCompleted,
   c.runId.setWidth 32, (c.runId >>> 32).setWidth 32,
   lowWord c.first, highWord c.first,
   lowWord c.last, highWord c.last]
  ++ firstFaultWords c.firstFault
  ++ [wordOfHalves c.tallies[0] c.tallies[1],
      wordOfHalves c.tallies[2] c.tallies[3],
      wordOfHalves c.tallies[4] c.tallies[5],
      wordOfHalves c.tallies[6] 0,
      wordOfHalves c.untracked c.stale,
      lowWord c.uncredited,
      lowWord c.unlisted,
      lowWord c.runSeconds,
      BitVec.ofNat 32 (c.allowance + 65536 * c.entries.length),
      lowWord c.total]
  ++ passRecordWords 1 c.passRecords[0] ++ passRecordWords 2 c.passRecords[1]
  ++ passRecordWords 3 c.passRecords[2] ++ passRecordWords 4 c.passRecords[3]
  ++ defectPlaceWords c.entries
  ++ [0]

/-- Words 0 to 126 of a rejection report (R172, R175). -/
def Rejection.body (r : Rejection) : List Word :=
  [Config.signature0, Config.signature1,
   reportWord2 RunOutcome.rejected.code r.reason.code,
   r.unitNumber.setWidth 32, (r.unitNumber >>> 32).setWidth 32,
   0,
   wordOfBytes IssueFlag.recorded.code r.size.code 0 0,
   r.runId.setWidth 32, (r.runId >>> 32).setWidth 32]
  ++ List.replicate 118 0

/-- The check word that brings a report's sum to 0 mod 2^32 (R170). -/
def checkWord (body : List Word) : Word := -(sumWords body)

/-- A body with its check word as the last word (R170). -/
def withCheckWord (body : List Word) : List Word := body ++ [checkWord body]

/-- The 128 words of the report the lane holds, if it holds one that can be read (R14, R170). A pending
certificate cannot be read. -/
def HeldReport.words : HeldReport → Option (List Word)
  | .absent => none
  | .pending _ => none
  | .certificate c => some (withCheckWord c.body)
  | .rejection r => some (withCheckWord r.body)

/-- The sector that carries a report: its 128 words, and 896 words of 0 after them in a 4096-byte sector (R14). -/
def reportSector (size : SectorSize) (words : List Word) : List Word :=
  match size with
  | .bytes512 => words
  | .bytes4096 => words ++ List.replicate 896 0

/-- The verdict of a certificate voided after it was built (R138, R171). -/
def postWriteVerdict : Verdict := ⟨.failed, .postWrite⟩

/-- A held report with its outcome voided (R138, R139, R171). A rejection report is never rebuilt (R172). -/
def HeldReport.voided : HeldReport → HeldReport
  | .pending c => .pending { c with verdict := postWriteVerdict }
  | .certificate c => .certificate { c with verdict := postWriteVerdict }
  | .absent => .absent
  | .rejection r => .rejection r

end Sys2Proof.Machine
end

