-- ==== Sys2Proof/Machine/Runs.lean ====
section
/-! DEFINITION. The Run Controller (08_runs_and_passes.md, 09_faults_and_fault_actions.md): pacing, closing, restart,
pass records, the completeness test and pass advance, fault groups and their actions, and the effects of markers
(05_markers_and_plans.md). -/

namespace Sys2Proof.Machine

/-! ## Pacing and hold levels (R49, R50, R51) -/

/-- The hold level of a pacing code (R49). -/
def holdLevel (code : Fin 4) : Nat :=
  match code with
  | 0 => 12
  | 1 => 8
  | 2 => 6
  | 3 => 3

/-- The release level of a pacing code (R49). -/
def releaseLevel (code : Fin 4) : Nat :=
  match code with
  | 0 => 8
  | 1 => 4
  | 2 => 2
  | 3 => 1

/-- The trigger reason after a job joins: set at or above the hold level (R50). -/
def Lane.afterJoin (x : Lane) : Lane :=
  if holdLevel x.capture.pacing ≤ x.capture.queue.length then
    x.modifyTap (fun t => { t with trigger := true })
  else x

/-- The trigger reason after jobs leave: cleared at or below the release level (R50). -/
def Lane.afterLeave (x : Lane) : Lane :=
  if x.capture.queue.length ≤ releaseLevel x.capture.pacing then
    x.modifyTap (fun t => { t with trigger := false })
  else x

/-- A change of pacing code, with the trigger reason tested at once against the new levels (R51). -/
def Lane.setPacing (code : Fin 4) (x : Lane) : Lane :=
  ((x.modifyCapture (fun c => { c with pacing := code })).afterJoin).afterLeave

/-- The limit in seconds of the stall and drain timers for a stall selection (R134, R142). -/
def timerLimit (selection : Fin 8) : Nat :=
  match selection with
  | 0 => 5
  | 1 => 15
  | 2 => 30
  | 3 => 60
  | 4 => 120
  | 5 => 300
  | 6 => 600
  | 7 => 1800

/-- The limit of the lane's stall and drain timers: its plan's (R134, R142). No timer runs without a plan. -/
def RunControl.limit (c : RunControl) : Nat :=
  match c.plan with
  | some p => timerLimit p.stall
  | none => 0

/-! ## Pass records (R129) -/

/-- The pass records with that of pass number `p` changed. -/
def updateRecord (p : Nat) (f : PassRecord → PassRecord) (v : Vector PassRecord 4) :
    Vector PassRecord 4 :=
  v.mapIdx (fun i r => if i + 1 = p then f r else r)

/-- The pass index now, 0 where there is none. -/
def RunControl.passIndex (c : RunControl) : Nat :=
  match c.current with
  | some t => t.pass
  | none => 0

/-- The current pass's record takes the run clock as its seconds, if the pass is open (R129, R132). -/
def PassRecord.stampSeconds (clock : Nat) (r : PassRecord) : PassRecord :=
  if r.status = .incomplete then { r with seconds := clock } else r

/-- The record of the pass open at the close takes the map's counts at the snapshot (R129, R136). -/
def PassRecord.copyCounts (m : Coverage) (r : PassRecord) : PassRecord :=
  if r.status = .incomplete then
    { r with written := m.writtenCount, verified := m.verifiedCount }
  else r

/-- A completed pass's record (R129, R130). -/
def PassRecord.finalise (m : Coverage) (clock : Nat) (r : PassRecord) : PassRecord :=
  { r with status := .complete, written := m.writtenCount, verified := m.verifiedCount, seconds := clock }

/-! ## Closing a run (R132) -/

/-- Entry to CLOSING with a verdict (R132). The pacing code keeps the plan's value. -/
def Lane.close (v : Verdict) (x : Lane) : Lane :=
  x.modifyRun (fun c =>
    { c with
      state := .closing
      verdict := some v
      stallTimer := 0
      drainTimer := 0
      passRecords := updateRecord c.passIndex (PassRecord.stampSeconds c.runClock) c.passRecords })

/-! ## The completeness test and pass advance (R119, R120, R130, R131) -/

/-- The definition of the current pass, from the plan record. -/
def RunControl.currentPass (c : RunControl) : Option PassDef :=
  match c.plan, c.current with
  | some p, some t => if t.pass = 0 then none else p.passes[t.pass - 1]?
  | _, _ => none

/-- The pass is write-complete (R119). -/
def writeComplete (n : Nat) (m : Coverage) (d : DefectList) : Bool :=
  decide (m.writtenCount + d.total = n)

/-- The completeness test on a pass definition (R120). -/
def passComplete (p : Plan) (d : PassDef) (m : Coverage) (l : DefectList) : Bool :=
  decide (l.unlisted = 0) &&
  match d.verify with
  | .none => writeComplete p.sectorCount m l
  | .full => decide (m.verifiedCount + l.total = p.sectorCount)
  | .sampled =>
    writeComplete p.sectorCount m l
      && decide (samplesHeld d.stride d.phase p.first p.sectorCount m.extents l.entries
          = totalSamples d.stride d.phase p.sectorCount)

/-- The completeness test of the lane's current pass (R120). -/
def Lane.complete (x : Lane) : Bool :=
  match x.run.plan, x.run.currentPass with
  | some p, some d => passComplete p d x.coverage x.defects
  | _, _ => false

/-- The lane is in the last pass of its plan (R131). -/
def RunControl.inLastPass (c : RunControl) : Bool :=
  match c.plan with
  | some p => decide (p.passes.length ≤ c.passIndex)
  | none => false

/-- A pass entered: its record is incomplete with attempts 1 (R129). -/
def PassRecord.enter (r : PassRecord) : PassRecord := { r with status := .incomplete, attempts := 1 }

/-- Pass advance, without the test of its last step (R130). -/
def Lane.advance (x : Lane) : Lane :=
  { x with
    coverage := x.coverage.clear
    run :=
      { x.run with
        passRecords :=
          updateRecord (x.run.passIndex + 1) PassRecord.enter
            (updateRecord x.run.passIndex (PassRecord.finalise x.coverage x.run.runClock)
              x.run.passRecords)
        current := some ⟨x.run.passIndex + 1, 1⟩
        stallTimer := 0 } }

/-- The verdict at the completion of the last pass (R131). -/
def lastPassVerdict (allowance : Nat) (d : DefectList) : Verdict :=
  if d.total = 0 ∧ d.unlisted = 0 then ⟨.clean, .none⟩
  else if d.unlisted = 0 ∧ d.total ≤ allowance then ⟨.exceptions, .none⟩
  else ⟨.failed, .fault .defectOverrun⟩

/-- The allowance of the lane's plan, which applies while it has one (R115). -/
def RunControl.allowance (c : RunControl) : Nat :=
  match c.plan with
  | some p => p.allowance
  | none => 0

/-- The end of the last pass: its record is finalised and the run closes (R131). -/
def Lane.finish (x : Lane) : Lane :=
  (x.modifyRun (fun c =>
    { c with
      passRecords :=
        updateRecord c.passIndex (PassRecord.finalise x.coverage c.runClock) c.passRecords })).close
    (lastPassVerdict x.run.allowance x.defects)

/-- The completeness test, run while the lane is RUNNING, at most `fuel` times: each pass found complete is
advanced, and tested again at its entry, or ends the run (R121, R122, R130, R131). -/
def Lane.testComplete : Nat → Lane → Lane
  | 0, x => x
  | fuel + 1, x =>
    if x.run.state = .running ∧ x.complete then
      if x.run.inLastPass then x.finish else Lane.testComplete fuel x.advance
    else x

/-- The number of passes of the lane's plan, which bounds how often one test can find a pass complete. -/
def RunControl.passCount (c : RunControl) : Nat :=
  match c.plan with
  | some p => p.passes.length
  | none => 0

/-- The completeness test, with all that follows from it (R121, R122). -/
def Lane.test (x : Lane) : Lane := Lane.testComplete x.run.passCount x

/-! ## Fault groups (R146 to R156) -/

/-- The action the plan gives a class (R151). -/
def RunControl.actionOf (c : RunControl) (f : FaultClass) : Action :=
  match c.plan with
  | some p => p.actions[f.place.val]
  | none => .note

/-- The stronger of two actions (R151). -/
def Action.stronger (a b : Action) : Action := if a.code ≤ b.code then b else a

/-- The action of a group: the strongest of its faults' actions (R151). -/
def RunControl.groupAction (c : RunControl) (g : List LaneFault) : Action :=
  g.foldr (fun f a => (c.actionOf f.cls).stronger a) .note

/-- The deciding class of a group: the first member whose own action is the group's (R152). -/
def RunControl.decidingClass (c : RunControl) (g : List LaneFault) : Option FaultClass :=
  (g.find? (fun f => decide (c.actionOf f.cls = c.groupAction g))).map LaneFault.cls

/-- The tallies with that of one class increased by 1, saturating (R148, R149). -/
def tallyFault (v : Vector Nat 7) (f : LaneFault) : Vector Nat 7 :=
  v.set f.cls.place.val (saturate Config.max16 (v[f.cls.place.val] + 1))

/-- Every fault of a group tallied (R148, R149). -/
def RunControl.tally (g : List LaneFault) (c : RunControl) : RunControl :=
  { c with tallies := g.foldl tallyFault c.tallies }

/-- The first-fault record filled from a group's first member, if it is absent (R150). -/
def RunControl.fillFirst (g : List LaneFault) (c : RunControl) : RunControl :=
  match c.firstFault, g with
  | none, f :: _ => { c with firstFault := some ⟨f.cls, c.passIndex, f.lba⟩ }
  | _, _ => c

/-- A RESTART below attempt 255 (R127, R155). -/
def Lane.restart (t : Stamp) (x : Lane) : Lane :=
  { x with
    coverage := x.coverage.clear
    run :=
      { x.run with
        current := some ⟨t.pass, t.attempt + 1⟩
        passRecords :=
          updateRecord t.pass (fun r => { r with attempts := t.attempt + 1 }) x.run.passRecords
        stallTimer := 0 } }

/-- FAIL with the deciding class as reason (R156). -/
def Lane.failRun (f : FaultClass) (x : Lane) : Lane := x.close ⟨.failed, .fault f⟩

/-- The RESTART action: at attempt 255 FAIL is applied in its place (R127, R128). -/
def Lane.applyRestart (f : FaultClass) (x : Lane) : Lane :=
  match x.run.current with
  | some t => if t.attempt < Config.maxAttempt then x.restart t else x.failRun f
  | none => x

/-- The SUSPEND action (R126, R154). -/
def Lane.applySuspend (x : Lane) : Lane :=
  if x.run.state = .running then x.modifyRun (fun c => { c with state := .suspended }) else x

/-- One action applied for a group whose deciding class is `f` (R153 to R156). -/
def Lane.applyAction (a : Action) (f : FaultClass) (x : Lane) : Lane :=
  match a with
  | .note => x
  | .suspend => x.applySuspend
  | .restart => x.applyRestart f
  | .fail => x.failRun f

/-- A fault group: handled whole in RUNNING and SUSPENDED, tallied only in the other states (R148, R149). An
empty group is no group (R146). -/
def Lane.takeGroup (g : List LaneFault) (x : Lane) : Lane :=
  match x.run.decidingClass g with
  | none => x
  | some f =>
    if x.run.state.handlesFaults then
      (x.modifyRun (fun c => (c.tally g).fillFirst g)).applyAction (x.run.groupAction g) f
    else x.modifyRun (fun c => c.tally g)

/-! ## The effects of markers (R76 to R87) -/

/-- A RESUME taken (R76). -/
def Lane.resume (x : Lane) : Lane :=
  (x.modifyRun (fun c => { c with state := .running, stallTimer := 0 })).test

/-- A HALT taken (R77). -/
def Lane.halt (x : Lane) : Lane := x.close ⟨.halted, .halt⟩

/-- The Run Controller's state that ends with a run, as RELEASE and refusal leave it (R78, R86): pass index,
attempt, outcome and reason absent, the plan record absent, the run clock 0 and stopped. -/
def RunControl.endRun (c : RunControl) : RunControl :=
  { c with
    plan := none
    current := none
    verdict := none
    runClock := 0
    stallTimer := 0
    drainTimer := 0 }

/-- A RELEASE taken (R78). The pacing code stays 1, as it already was. -/
def Lane.release (x : Lane) : Lane :=
  (x.modifyRun (fun c =>
    { c.endRun with
      state := .idle
      anchor := none
      runId := none
      refusal := none
      held := .absent })).modifyTap (fun t => { t with reportReady := false })

/-- The pass record of pass `i`, counted from 0, at plan acceptance (R85, R129). -/
def acceptedRecord (p : Plan) (i : Nat) : PassRecord :=
  match p.passes[i]? with
  | none => .initial
  | some d =>
    if i = 0 then { PassRecord.initial with kind := d.kind, verify := d.verify }.enter
    else { PassRecord.initial with kind := d.kind, verify := d.verify }

/-- A plan accepted at LBA `anchor` (R85). -/
def Lane.acceptPlan (p : Plan) (anchor : Nat) (x : Lane) : Lane :=
  { x with
    coverage := .initial
    defects := .initial
    tracker := { x.tracker with untracked := 0 }
    run :=
      { state := .running
        anchor := some anchor
        runId := some p.runId
        plan := some p
        refusal := none
        current := some ⟨1, 1⟩
        passRecords := Vector.ofFn (fun i : Fin 4 => acceptedRecord p i.val)
        runClock := 0
        stallTimer := 0
        drainTimer := 0
        verdict := none
        stale := 0
        held := .absent
        tallies := Vector.replicate 7 0
        firstFault := none } }.setPacing p.pacing

/-- A plan refused at LBA `anchor`, with the run id words as found (R86, R172). The pacing code stays 1. -/
def Lane.refusePlan (reason : RefusalReason) (unit : BitVec 64) (size : SectorSize) (words : List Word)
    (anchor : Nat) (x : Lane) : Lane :=
  (x.modifyRun (fun c =>
    { c.endRun with
      state := .rejected
      anchor := some anchor
      runId := some (markerRunId words)
      refusal := some reason
      held := .rejection ⟨reason, unit, size, markerRunId words⟩ })).modifyTap
    (fun t => { t with reportReady := true })

/-- What a lane reads of the Issue Store: whether its start-up read has ended, and the unit number. -/
structure StoreView where
  readEnded : Bool
  unitNumber : BitVec 64
  deriving DecidableEq, Repr

/-- A PLAN taken: the held report is discarded and the report-ready flag cleared, then the plan is validated and
accepted or refused (R80, R85, R86). -/
def Lane.takePlan (v : StoreView) (m : TakenMarker) (x : Lane) : Lane :=
  match x.tap.sectorSize with
  | none => x
  | some size =>
    match planFailure v.readEnded size m.words with
    | some reason => x.refusePlan reason v.unitNumber size m.words m.lba
    | none =>
      (x.modifyTap (fun t => { t with reportReady := false })).acceptPlan (decodePlan size m.words) m.lba

/-- A taken marker handed on at step 5 of retirement: its action is applied if the run state then standing still
admits its kind (R27, R38, R74). -/
def Lane.applyMarker (v : StoreView) (m : TakenMarker) (x : Lane) : Lane :=
  if m.kind.admittedIn x.run.state then
    match m.kind with
    | .plan => x.takePlan v m
    | .resume => x.resume
    | .halt => x.halt
    | .release => x.release
  else x

/-! ## The end of CLOSING (R135, R136, R137) -/

/-- The number of pass records with status complete (R168). -/
def passesCompleted (v : Vector PassRecord 4) : Nat :=
  (v.toList.filter (fun r => decide (r.status = .complete))).length

/-- The pending certificate built from the snapshot. The issue number, flag and run seconds are filled when the
store answers (R136, R168). -/
def snapshotOf (unit : BitVec 64) (p : Plan) (t : Verdict) (x : Lane) : Certificate where
  verdict := t
  unitNumber := unit
  issueNumber := 0
  flag := .recorded
  size := p.size
  passCount := p.passes.length
  passesCompleted := passesCompleted x.run.passRecords
  runId := p.runId
  first := p.first
  last := p.last
  anchor := x.run.anchor
  firstFault := x.run.firstFault
  tallies := x.run.tallies
  untracked := x.tracker.untracked
  stale := x.run.stale
  uncredited := x.coverage.uncredited
  unlisted := x.defects.unlisted
  runSeconds := 0
  allowance := p.allowance
  total := x.defects.total
  passRecords := x.run.passRecords
  entries := x.defects.entries

/-- The held report at the snapshot. A lane in CLOSING has a plan record and a verdict (R132). -/
def Lane.snapshot (unit : BitVec 64) (x : Lane) : HeldReport :=
  match x.run.plan, x.run.verdict with
  | some p, some t => .pending (snapshotOf unit p t x)
  | _, _ => .absent

/-- The record of the pass open at the close completed with the map's counts (R136). -/
def Lane.copyOpenCounts (x : Lane) : Lane :=
  x.modifyRun (fun c =>
    { c with passRecords := updateRecord c.passIndex (PassRecord.copyCounts x.coverage) c.passRecords })

/-- The lane leaves CLOSING: snapshot, ISSUING, drain timer stopped, pacing code 1 (R135, R136, R137). -/
def Lane.enterIssuing (unit : BitVec 64) (x : Lane) : Lane :=
  (x.copyOpenCounts.modifyRun (fun c =>
    { c with
      held := x.copyOpenCounts.snapshot unit
      state := .issuing
      drainTimer := 0 })).setPacing 1

/-- A pending certificate completed by the store's answer (R167). -/
def HeldReport.answered (number : Nat) (flag : IssueFlag) (seconds : Nat) : HeldReport → HeldReport
  | .pending c => .certificate { c with issueNumber := number, flag := flag, runSeconds := seconds }
  | .absent => .absent
  | .certificate c => .certificate c
  | .rejection r => .rejection r

/-- The store's answer, which reaches a lane in ISSUING: the lane enters ISSUED (R137, R167). -/
def Lane.answer (number : Nat) (flag : IssueFlag) (x : Lane) : Lane :=
  if x.run.state = .issuing then
    (x.modifyRun (fun c =>
      { c with state := .issued, held := c.held.answered number flag c.runClock })).modifyTap
      (fun t => { t with reportReady := true })
  else x

end Sys2Proof.Machine
end

