-- ==== Sys2Proof/Machine/Buffers.lean ====
section
/-! DEFINITION. The Capture Pool and the grant of the Compare Engine (03_capture_and_comparison.md): buffers freed
to the waiting list, discards, the drop of a waiting sector, the discard mark, and abandonment (R39). -/

namespace Sys2Proof.Machine

/-- The four conditions of a sector buffer (R42). -/
inductive BufferStatus where
  | free
  | reserved
  | queued
  | engaged
  deriving DecidableEq, Repr

/-- The buffers reserved for lanes (R47). -/
def State.reservedBuffers (s : State) : List BufferId :=
  s.lanes.toList.filterMap (fun x => x.capture.reservation)

/-- The buffers of the jobs in all capture queues (R42). -/
def State.queuedBuffers (s : State) : List BufferId :=
  s.lanes.toList.flatMap (fun x => x.capture.queue.map Job.buffer)

/-- The buffer of the job in the Compare Engine (R42). -/
def State.engagedBuffers (s : State) : List BufferId :=
  match s.engine.inFlight with
  | some f => [f.job.buffer]
  | none => []

/-- The status of a buffer, computed from where its number stands (R42, log 20). -/
def State.bufferStatus (s : State) (b : BufferId) : BufferStatus :=
  if b ∈ s.engagedBuffers then .engaged
  else if b ∈ s.queuedBuffers then .queued
  else if b ∈ s.reservedBuffers then .reserved
  else .free

/-- A buffer freed: RESERVED for the lane at the head of the waiting list, whose pool reason is cleared, or FREE
when the list is empty (R47). -/
def State.freeBuffer (s : State) (b : BufferId) : State :=
  match s.pool.waitingList with
  | [] => { s with pool := { s.pool with freeBuffers := b :: s.pool.freeBuffers } }
  | l :: rest =>
    { s with pool := { s.pool with waitingList := rest } }.modifyLane l (fun x =>
      (x.modifyCapture (fun c => { c with reservation := some b })).modifyTap
        (fun t => { t with poolReason := false }))

/-- Several buffers freed, one at a time in order (R47). -/
def State.freeBuffers (s : State) (bs : List BufferId) : State := bs.foldl State.freeBuffer s

/-- A reservation cancelled: the buffer is freed anew (R48). -/
def State.cancelReservation (s : State) (l : LaneId) : State :=
  match (s.lane l).capture.reservation with
  | none => s
  | some b =>
    (s.modifyLane l (fun x => x.modifyCapture (fun c => { c with reservation := none }))).freeBuffer b

/-- A lane taken off the pool waiting list, with its pool reason cleared (R59, R60). -/
def State.leaveWaitingList (s : State) (l : LaneId) : State :=
  { s with pool := { s.pool with waitingList := s.pool.waitingList.erase l } }.modifyLane l
    (fun x => x.modifyTap (fun t => { t with poolReason := false }))

/-- The lane's waiting sector dropped without passing: the lane leaves the waiting list, or its reservation is
cancelled (R25, R48, R59). -/
def State.dropWaiting (s : State) (l : LaneId) : State :=
  ((s.modifyLane l (fun x => x.modifyTap (fun t => { t with waiting := none }))).leaveWaitingList
    l).cancelReservation l

/-- The jobs of a lane's queue that satisfy `p` discarded: the others keep their order, each discarded job's buffer
is freed in queue order, and the hold rule is applied to the final length (R59). -/
def State.discardJobs (s : State) (l : LaneId) (p : Job → Bool) : State :=
  (((s.modifyLane l (fun x =>
      x.modifyCapture (fun c => { c with queue := c.queue.filter (fun j => !p j) }))).freeBuffers
    (((s.lane l).capture.queue.filter p).map Job.buffer)).modifyLane l Lane.afterLeave)

/-- The discard mark set on the job in flight, if it is the lane's and satisfies `p` (R58). -/
def State.markInFlight (s : State) (l : LaneId) (p : Job → Bool) : State :=
  match s.engine.inFlight with
  | none => s
  | some f =>
    if f.lane = l ∧ p f.job then
      { s with engine := { s.engine with inFlight := some { f with discard := true } } }
    else s

/-- What the pool and the engine do when the records of a lane whose tags satisfy `p` are abandoned (R59). -/
def State.discardForTags (s : State) (l : LaneId) (p : Tag → Bool) : State :=
  let t := s.discardJobs l (fun j => p j.tag)
  let u :=
    match (t.lane l).tap.waiting with
    | none => t
    | some w => if p w.tag then t.dropWaiting l else t
  u.markInFlight l (fun j => p j.tag)

/-- The tracker's part of abandonment: the records leave the table and are counted untracked (R39). -/
def Tracker.abandon (p : Tag → Bool) (t : Tracker) : Tracker :=
  Tracker.countUntracked { t with records := t.records.filter (fun r => !p r.tag) }
    (t.records.filter (fun r => p r.tag)).length

/-- The records of a lane whose tags satisfy `p` abandoned (R39, R59). -/
def State.abandon (s : State) (l : LaneId) (p : Tag → Bool) : State :=
  (s.modifyLane l (fun x => x.modifyTracker (Tracker.abandon p))).discardForTags l p

/-! ## The grant (R53, R54) -/

/-- The lanes in the order the search visits them: from the one after the last-granted lane, ending with it
(R53). -/
def searchOrder (last : LaneId) : List LaneId :=
  [last + 1, last + 2, last + 3, last + 4, last + 5, last + 6, last + 7, last]

/-- The context a job takes at its grant (R54). -/
def Lane.grantContext (x : Lane) (j : Job) : Option GrantContext :=
  (x.tracker.find j.tag).map (fun r =>
    { operation := r.operation
      stamp := r.stamp
      lba := r.operation.lbaAt j.index
      plan := if x.run.state.active then x.run.plan else none })

/-- The engine grants the head job `j` of lane `l`, whose queue is `j` followed by `rest` (R53). -/
def State.grantJob (s : State) (l : LaneId) (j : Job) (rest : List Job) : State :=
  { s with
    engine :=
      { lastGranted := l
        inFlight :=
          some { lane := l, job := j, context := (s.lane l).grantContext j, discard := false } } }.modifyLane
    l (fun x => (x.modifyCapture (fun c => { c with queue := rest })).afterLeave)

/-- The grant: when the engine is free, to the head job of the first lane in search order whose queue is not
empty (R53). -/
def State.grant (s : State) : State :=
  match s.engine.inFlight with
  | some _ => s
  | none =>
    match (searchOrder s.engine.lastGranted).find? (fun l => !(s.lane l).capture.queue.isEmpty) with
    | none => s
    | some l =>
      match (s.lane l).capture.queue with
      | [] => s
      | j :: rest => s.grantJob l j rest

/-! ## A lane's reset (R60) -/

/-- The job in flight of a lane ends at once when its sector is cut off: its buffer is freed, the engine is free,
its result is dropped (R58). The sector cut off is the one that last started on the link. -/
def State.cutOff (s : State) (l : LaneId) (crossing : Option BufferId) : State :=
  match s.engine.inFlight with
  | none => s
  | some f =>
    if f.lane = l ∧ crossing = some f.job.buffer then
      { s with engine := { s.engine with inFlight := none } }.freeBuffer f.job.buffer
    else s

/-- What the pool and the engine do at a LINK RESET or DETACH of a lane, in the order of R60. -/
def State.resetCapture (s : State) (l : LaneId) (cut : Bool) : State :=
  let crossing := (s.lane l).tap.crossing
  let t := ((s.dropWaiting l).discardJobs l (fun _ => true)).modifyLane l (fun x =>
    x.modifyTap (fun t => { t with trigger := false, poolReason := false, crossing := none }))
  let u := t.markInFlight l (fun _ => true)
  (if cut then u.cutOff l crossing else u).grant

end Sys2Proof.Machine
end

