-- ==== Sys2Proof/Machine/IssueStore.lean ====
section
/-! DEFINITION. The Issue Store (10_certificates_and_the_issue_store.md): service of requests, answers, and the end
of CLOSING that puts a request in its queue (R135, R137, R162). -/

namespace Sys2Proof.Machine

/-- What a lane reads of the store (R81, R168). -/
def Store.view (t : Store) : StoreView where
  readEnded := decide (t.status ≠ .starting)
  unitNumber := t.unitNumber

/-- The service of one request, of lane `l`, at the head of the queue (R163). -/
def State.serveHead (s : State) (l : LaneId) (rest : List LaneId) : State :=
  if s.store.status = .ready ∧ s.store.storedNumber < Config.max32 then
    { s with
      store :=
        { s.store with
          requests := rest
          writeInFlight := some { lane := l, number := s.store.storedNumber + 1, laneGone := false } } }
  else
    { s with store := { s.store with requests := rest } }.modifyLane l (Lane.answer 0 .unrecorded)

/-- The store serves requests whenever no write is in flight and its start-up read has ended, at most `fuel` of
them (R163). -/
def State.serve : Nat → State → State
  | 0, s => s
  | fuel + 1, s =>
    match s.store.writeInFlight, s.store.status, s.store.requests with
    | none, .ready, l :: rest => State.serve fuel (s.serveHead l rest)
    | none, .degraded, l :: rest => State.serve fuel (s.serveHead l rest)
    | _, _, _ => s

/-- The store serves every request it can (R163). -/
def State.serveAll (s : State) : State := State.serve s.store.requests.length s

/-- A lane in CLOSING whose pending command table is empty leaves CLOSING: snapshot, ISSUING, its request joins
the store's queue, and the store serves (R135, R136, R137, R162, R163). -/
def State.settleClosing (s : State) (l : LaneId) : State :=
  if (s.lane l).run.state = .closing ∧ (s.lane l).tracker.records = [] then
    let t := s.modifyLane l (Lane.enterIssuing s.store.unitNumber)
    { t with store := { t.store with requests := t.store.requests ++ [l] } }.serveAll
  else s

/-- The store at a DETACH of a lane (R166). -/
def Store.laneDetached (l : LaneId) (t : Store) : Store :=
  { t with
    requests := t.requests.erase l
    writeInFlight :=
      t.writeInFlight.map (fun w => if w.lane = l then { w with laneGone := true } else w) }

/-- The store when its write ends: the number stored on success, no write in flight, and a start-up read that was
put off begins (R164, R165, R180). -/
def Store.writeEnded (success : Bool) (w : StoreWrite) (t : Store) : Store :=
  { t with
    storedNumber := if success then w.number else t.storedNumber
    writeInFlight := none
    read := if t.read = .deferred then .inFlight else t.read }

/-- The answer a lane gets when the write of its request ends (R164, R165). -/
def Lane.answerWrite (success : Bool) (number : Nat) (x : Lane) : Lane :=
  if success then x.answer number .recorded else x.answer 0 .unrecorded

end Sys2Proof.Machine
end

