-- ==== Sys2Proof/Machine/Retirement.lean ====
section
/-! DEFINITION. Retirement (R26 to R38): what a retiring record hands on in each run state, its fault group, its
marker, and the completeness test, in the order of R27. -/

namespace Sys2Proof.Machine

/-- A fault of a class that is raised with the LBA of its lowest sector, when there is one (R145). -/
def raiseAt (c : FaultClass) (lowest : Option Nat) : List LaneFault :=
  match lowest with
  | some a => [⟨c, some a⟩]
  | none => []

/-- MEDIUM_ERROR of a record with ERROR status, with the error LBA when it lies inside the command (R33, R34,
R35). -/
def Record.mediumError (r : Record) : List LaneFault :=
  if r.failed then [⟨.mediumError, r.division.errorSector⟩] else []

/-- The flush flag of the lane's plan (R82). -/
def RunControl.flushFlag (c : RunControl) : Bool :=
  match c.plan with
  | some p => p.flush
  | none => false

/-- A map result taken: a credit event restarts the stall timer (R106, R142). -/
def Lane.takeMapResult (m : MapResult) (x : Lane) : Lane :=
  { x with
    coverage := m.coverage
    run := if m.creditEvent then { x.run with stallTimer := 0 } else x.run }

/-- The lane's map after a credit removal (R98). -/
def Lane.removeCredit (sectors : List Nat) (x : Lane) : Lane :=
  { x with coverage := x.coverage.remove sectors }

/-- The in-range sectors of a write's good part that lose their credit by their entry: MISMATCH and NOT-CAPTURED
(R29). -/
def Record.lostSectors (r : Record) (takenIndex : Option Nat) (inRange : Nat → Bool) : List Nat :=
  ((r.findings takenIndex).filter (fun q =>
    inRange q.1 && r.division.good q.1
      && (decide (q.2 = .mismatched) || decide (q.2 = .notCaptured)))).map Prod.fst

/-- The sectors a write removes after its error sector is listed: its tail, or the whole in-range part of an
unplaced write (R29). -/
def Record.tailOrAll (r : Record) (inRange : Nat → Bool) : List Nat :=
  if r.division = .unplaced then r.inRangePart inRange else r.tailSectors inRange

/-- The credited set of a write: its matching sectors less those listed at that moment (R93). -/
def creditedSet (sectors : List Nat) (d : DefectList) : List Nat :=
  sectors.filter (fun a => !d.lists a)

/-- The write credit of step 3 handed to the lane's map (R29, R93). -/
def Lane.writeCredit (sectors : List Nat) (x : Lane) : Lane :=
  x.takeMapResult
    (x.coverage.writeCredit x.run.flushFlag x.tracker.epoch (creditedSet sectors x.defects))

/-- Steps 2 and 3 for a WRITE in RUNNING with a current stamp (R29, R31, R33). -/
def handOverCurrentWrite (takenIndex : Option Nat) (r : Record) (x : Lane) : Handover :=
  let h := addDefects .writeFail x.run.passIndex (r.inRangeError x.run.inRange).toList
    { lane :=
        { x with
          coverage := (x.coverage.remove (r.lostSectors takenIndex x.run.inRange)).countUncredited
            (r.goodSectors takenIndex x.run.inRange .notCaptured).length }
      faults := [] }
  { lane :=
      (h.lane.removeCredit (r.tailOrAll x.run.inRange)).writeCredit
        (r.goodSectors takenIndex x.run.inRange .matched)
    faults :=
      raiseAt .writeMismatch (r.goodSectors takenIndex x.run.inRange .mismatched).head?
        ++ r.mediumError ++ raiseAt .foreignWrite (r.lowestForeign x.run.inRange x.run.anchor)
        ++ h.faults }

/-- The stale counter increased by 1, saturating (R30). -/
def Lane.countStale (x : Lane) : Lane :=
  x.modifyRun (fun c => { c with stale := saturate Config.max16 (c.stale + 1) })

/-- The in-range part of a write without the sector of its taken marker, which has no credit effect (R30, R38,
log 15). -/
def Record.withdrawnPart (r : Record) (takenIndex : Option Nat) (inRange : Nat → Bool) : List Nat :=
  (r.inRangePart inRange).filter (fun a =>
    decide (takenIndex.map r.operation.lbaAt ≠ some a))

/-- Steps 2 and 3 for a WRITE in RUNNING with a stale stamp, or in SUSPENDED with any (R30, R31, R33). -/
def handOverWithdrawnWrite (takenIndex : Option Nat) (r : Record) (x : Lane) : Handover :=
  let y := if x.run.isCurrent r.stamp then x else x.countStale
  let h := addDefects .writeFail x.run.passIndex (r.inRangeError x.run.inRange).toList
    { lane := y.removeCredit (r.withdrawnPart takenIndex x.run.inRange), faults := [] }
  { lane := h.lane
    faults :=
      (if x.run.isCurrent r.stamp then
        raiseAt .writeMismatch (r.goodSectors takenIndex x.run.inRange .mismatched).head?
       else [])
        ++ r.mediumError ++ raiseAt .foreignWrite (r.lowestForeign x.run.inRange x.run.anchor)
        ++ h.faults }

/-- Steps 2 and 3 for a WRITE in RUNNING or SUSPENDED (R29, R30). -/
def handOverWrite (takenIndex : Option Nat) (r : Record) (x : Lane) : Handover :=
  if x.run.state = .running ∧ x.run.isCurrent r.stamp then handOverCurrentWrite takenIndex r x
  else handOverWithdrawnWrite takenIndex r x

/-- The MISMATCH sectors of a read that the map holds credited at this retirement (R32). -/
def Record.readMismatches (r : Record) (x : Lane) : List Nat :=
  (r.goodSectors none x.run.inRange .mismatched).filter
    (fun a => (conditionOf x.coverage.extents a).isSome)

/-- Steps 2 and 3 for a READ in RUNNING with a current stamp (R32, R33). -/
def handOverCurrentRead (r : Record) (x : Lane) : Handover :=
  let h := addDefects .readFail x.run.passIndex (r.inRangeError x.run.inRange).toList
    (addDefects .mismatch x.run.passIndex (r.readMismatches x) { lane := x, faults := [] })
  { lane :=
      h.lane.takeMapResult
        (h.lane.coverage.verifyCredit (r.goodSectors none x.run.inRange .matched))
    faults := raiseAt .readMismatch (r.readMismatches x).head? ++ r.mediumError ++ h.faults }

/-- Steps 2 and 3 for a READ in RUNNING with a stale stamp, or in SUSPENDED: its error sector alone (R32, R33). -/
def handOverStaleRead (r : Record) (x : Lane) : Handover :=
  let h := addDefects .readFail x.run.passIndex (r.inRangeError x.run.inRange).toList
    { lane := x, faults := [] }
  { lane := h.lane, faults := r.mediumError ++ h.faults }

/-- Steps 2 and 3 for a READ in RUNNING or SUSPENDED (R32). -/
def handOverRead (r : Record) (x : Lane) : Handover :=
  if x.run.state = .running ∧ x.run.isCurrent r.stamp then handOverCurrentRead r x
  else handOverStaleRead r x

/-- Step 2 for a DISCARD in RUNNING or SUSPENDED (R34). -/
def handOverDiscard (r : Record) (x : Lane) : Handover where
  lane := x.removeCredit (r.inRangePart x.run.inRange)
  faults := r.mediumError ++ raiseAt .foreignWrite (r.inRangePart x.run.inRange).head?

/-- Step 3 for a FLUSH in RUNNING or SUSPENDED: promotion when its status is GOOD (R35). -/
def handOverFlush (number : Nat) (r : Record) (x : Lane) : Handover where
  lane := if r.succeeded then x.takeMapResult (x.coverage.promote number) else x
  faults := r.mediumError

/-- A WRITE retiring in CLOSING is a late write (R36). -/
def Record.isLateWrite (r : Record) (c : RunControl) : Bool :=
  (!c.isCurrent r.stamp && !(r.inRangePart c.inRange).isEmpty)
    || (decide (r.division = .unplaced) && !(r.inRangePart c.inRange).isEmpty)
    || !(r.lostSectors none c.inRange).isEmpty
    || (r.inRangeError c.inRange).isSome
    || !(r.tailSectors c.inRange).isEmpty

/-- The command retiring in CLOSING makes the outcome FAILED with reason LATE_WRITE (R36). -/
def Record.isLate (r : Record) (c : RunControl) : Bool :=
  match r.operation with
  | .write _ _ => r.isLateWrite c
  | .discard _ _ => !(r.inRangePart c.inRange).isEmpty
  | .read _ _ => false
  | .flush _ => false

/-- Retirement in CLOSING (R36, R133). -/
def handOverClosing (r : Record) (x : Lane) : Handover where
  lane :=
    if r.isLate x.run then
      x.modifyRun (fun c => { c with verdict := some ⟨.failed, .lateWrite⟩ })
    else x
  faults := r.mediumError

/-- A write made only of a taken control marker, in ISSUED (R37). -/
def madeOfControlMarker (taken : Option TakenMarker) (r : Record) (c : RunControl) : Bool :=
  match taken with
  | some m => decide (c.state = .issued) && decide (m.kind ≠ .plan) && decide (r.operation.count = 1)
  | none => false

/-- The command retiring in ISSUING or ISSUED voids the certificate (R37). -/
def Record.isVoiding (r : Record) (taken : Option TakenMarker) (c : RunControl) : Bool :=
  match r.operation with
  | .write _ _ => !(r.inRangePart c.inRange).isEmpty && !madeOfControlMarker taken r c
  | .discard _ _ => !(r.inRangePart c.inRange).isEmpty
  | .read _ _ => false
  | .flush _ => false

/-- The certificate voided: the pending one in ISSUING, or the held one rebuilt in ISSUED, with the report-ready
flag set again (R138, R139). -/
def Lane.void (x : Lane) : Lane :=
  { x with
    run := { x.run with verdict := some postWriteVerdict, held := x.run.held.voided }
    tap := if x.run.state = .issued then { x.tap with reportReady := true } else x.tap }

/-- Retirement in ISSUING and ISSUED (R37). -/
def handOverIssued (taken : Option TakenMarker) (r : Record) (x : Lane) : Handover where
  lane := if r.isVoiding taken x.run then x.void else x
  faults := r.mediumError

/-- Steps 2 and 3 of retirement, by the run state (R27, the table after it). -/
def handOver (taken : Option TakenMarker) (r : Record) (x : Lane) : Handover :=
  match x.run.state with
  | .running | .suspended =>
    match r.operation with
    | .write _ _ => handOverWrite (taken.map TakenMarker.index) r x
    | .read _ _ => handOverRead r x
    | .discard _ _ => handOverDiscard r x
    | .flush number => handOverFlush number r x
  | .closing => handOverClosing r x
  | .issuing | .issued => handOverIssued taken r x
  | .idle | .rejected => { lane := x, faults := r.mediumError }
  | .detached => { lane := x, faults := [] }

/-- Steps 2 and 3 changed the map or the defect list: its extents, its entries, or its unlisted counter (R107,
R121). -/
def recordsChanged (x y : Lane) : Bool :=
  decide (x.coverage.extents ≠ y.coverage.extents) || decide (x.defects.entries ≠ y.defects.entries)
    || decide (x.defects.unlisted ≠ y.defects.unlisted)

/-- Step 5: a taken marker handed on (R27). -/
def Lane.handOnMarker (v : StoreView) (taken : Option TakenMarker) (x : Lane) : Lane :=
  match taken with
  | none => x
  | some m => x.applyMarker v m

/-- Step 6: the completeness test, if steps 2 and 3 changed the map or the list (R27, R121). The test itself looks
whether the lane is RUNNING. -/
def Lane.testIf (changed : Bool) (x : Lane) : Lane := if changed then x.test else x

/-- The retirement of record `r`, already removed from the table of lane `x`: steps 1 to 6 of R27. -/
def Lane.retire (v : StoreView) (r : Record) (x : Lane) : Lane :=
  let taken := judgeMarker x.run r
  let h := handOver taken r x
  ((h.lane.takeGroup h.faults).handOnMarker v taken).testIf (recordsChanged x h.lane)

/-- A record of lane `l` retires: it leaves the table, its effects are handed on, and CLOSING ends if its table has
become empty (R26, R27, R135). -/
def State.retire (s : State) (l : LaneId) (r : Record) : State :=
  (s.modifyLane l (fun x =>
    (x.modifyTracker (fun t => t.remove r.tag)).retire s.store.view r)).settleClosing l

/-- A record retires once its completion and all its results are in (R26). -/
def Record.mayRetire (r : Record) : Bool := r.completion.isSome && decide (r.outstanding = 0)

/-- A changed record put in its table, or retired if it has all it needs (R24, R25, R26). -/
def State.enterRecord (s : State) (l : LaneId) (r : Record) : State :=
  if r.mayRetire then s.retire l r
  else s.modifyLane l (fun x => x.modifyTracker (fun t => t.replace r))

end Sys2Proof.Machine
end

