-- ==== Sys2Proof/Machine/Clocks.lean ====
section
/-! DEFINITION. The clocks: the seconds that pass on every lane (R134, R141, R142), with the expiries of the timers that
reach their limits in them (R135, R142), and the two commands that let the seconds up to an expiry pass. -/

namespace Sys2Proof.Machine

/-- The run clock counts in RUNNING, SUSPENDED, CLOSING and ISSUING (R141). -/
def RunState.clockRuns : RunState → Bool
  | .running | .suspended | .closing | .issuing => true
  | .detached | .idle | .issued | .rejected => false

/-- The stall timer counts while the lane is RUNNING and released (R142). -/
def Lane.stallRuns (x : Lane) : Bool := decide (x.run.state = .running) && !x.held

/-- The drain timer counts while the lane is CLOSING, held or not (R134). -/
def Lane.drainRuns (x : Lane) : Bool := decide (x.run.state = .closing)

/-- A lane when one more second has been counted: by the run clock, the stall timer and the drain timer, each where it
runs (R134, R141, R142). -/
def Lane.countSecond (x : Lane) : Lane :=
  { x with
    run :=
      { x.run with
        runClock :=
          if x.run.state.clockRuns then saturate Config.max32 (x.run.runClock + 1) else x.run.runClock
        stallTimer := if x.stallRuns then x.run.stallTimer + 1 else x.run.stallTimer
        drainTimer := if x.drainRuns then x.run.drainTimer + 1 else x.run.drainTimer } }

/-- Every lane has counted one more second. -/
def State.countSecond (s : State) : State := { s with lanes := s.lanes.map Lane.countSecond }

/-! ## Expiry (R135, R142) -/

/-- The stall timer has counted up to its limit (R142). -/
def Lane.stallDue (x : Lane) : Bool := x.stallRuns && decide (x.run.limit ≤ x.run.stallTimer)

/-- The drain timer has counted up to its limit (R134). -/
def Lane.drainDue (x : Lane) : Bool := x.drainRuns && decide (x.run.limit ≤ x.run.drainTimer)

/-- The expiry of the stall timer on its lane: the timer restarts from 0, and the STALL group is taken (R142,
R149). -/
def Lane.stall (x : Lane) : Lane :=
  (x.modifyRun (fun c => { c with stallTimer := 0 })).takeGroup [⟨.stall, none⟩]

/-- The expiry of the stall timer, taken by the part: CLOSING ends at once if the group closed the run with no record
pending (R132, R142). -/
def State.expireStall (s : State) (l : LaneId) : State := (s.modifyLane l Lane.stall).settleClosing l

/-- The expiry of the drain timer: every pending record is abandoned, and CLOSING ends (R135). -/
def State.expireDrain (s : State) (l : LaneId) : State := (s.abandon l (fun _ => true)).settleClosing l

/-- A timer of the lane that has counted up to its limit expires (R135, R142). -/
def State.expire (s : State) (l : LaneId) : State :=
  if (s.lane l).stallDue then s.expireStall l
  else if (s.lane l).drainDue then s.expireDrain l
  else s

/-! ## Seconds -/

/-- One second: it is counted on every lane, and the timers that it brings to their limits expire. The rules give
no order to the expiries of different lanes in one second; they are taken in the order of the lanes, after those of
`first` (DESIGN CHOICE, log 5). -/
def State.second (first : List LaneId) (s : State) : State :=
  (first ++ List.finRange 8).foldl State.expire s.countSecond

/-- The part after `n` seconds in which no command is taken. -/
def State.seconds : Nat → State → State
  | 0, s => s
  | n + 1, s => (s.second []).seconds n

/-- The part after the seconds in which a timer of lane `l`, now at `t`, counts up to its limit. In the last of them
the lane's own expiry comes first (log 5). -/
def State.untilExpiry (s : State) (l : LaneId) (t : Nat) : State :=
  (s.seconds ((s.lane l).run.limit - t - 1)).second [l]

/-- STALL_EXPIRY (R142): the seconds left on the timer pass, with the expiry at the end of the last one (log 5). While
the timer does not run there is no expiry (log 6). -/
def execStallExpiry (lane : LaneId) (s : State) : Host.Outcome State Fault Refusal :=
  if (s.lane lane).stallRuns then .next (s.untilExpiry lane (s.lane lane).run.stallTimer) else .next s

/-- DRAIN_EXPIRY (R134, R135): the seconds left on the timer pass, with the expiry at the end of the last one (log
5). While the timer does not run there is no expiry (log 6). -/
def execDrainExpiry (lane : LaneId) (s : State) : Host.Outcome State Fault Refusal :=
  if (s.lane lane).drainRuns then .next (s.untilExpiry lane (s.lane lane).run.drainTimer) else .next s

end Sys2Proof.Machine
end

