-- ==== Sys2Proof/Machine/Commands.lean ====
section
/-! DEFINITION. Command frames (R5, R13, R18 to R22). Every frame is forwarded (R8); a tap that takes events also
updates its read address table and hands the COMMAND to the tracker. -/

namespace Sys2Proof.Machine

/-- A frame forwarded while supply is present (R8, R180). -/
def State.forwardFrame (s : State) (l : LaneId) (d : Direction) (t : Traffic) : State :=
  if s.powered then s.forward l d t else s

/-- The slot of a tag set in the lane's read address table (R13). -/
def Lane.setSlot (tag : Tag) (slot : Option ReadSlot) (x : Lane) : Lane :=
  x.modifyTap (fun t => { t with readTable := t.readTable.set tag.val slot })

/-- A new record (R19). -/
def newRecord (tag : Tag) (o : Operation) (stamp : Option Stamp) : Record where
  tag := tag
  operation := o
  stamp := stamp
  entries := List.replicate o.count .notCaptured
  marker := none
  outstanding := 0
  completion := none

/-- The flush epoch counter after a FLUSH that made a record (R20). -/
def Operation.nextEpoch (o : Operation) (epoch : Nat) : Nat :=
  match o with
  | .flush _ => saturate Config.max32 (epoch + 1)
  | .read _ _ | .write _ _ | .discard _ _ => epoch

/-- A command of a tracked kind whose tag is not pending: a record if the table has room, else counted untracked
(R19, R20, R21). -/
def Lane.track (tag : Tag) (o : Operation) (x : Lane) : Lane :=
  if x.tracker.records.length < Config.tableSize then
    x.modifyTracker (fun t =>
      { t with
        records := t.records ++ [newRecord tag o x.run.stampForCommand]
        epoch := o.nextEpoch t.epoch })
  else x.modifyTracker (fun t => t.countUntracked 1)

/-- The pending record of a tag abandoned, if there is one (R22). -/
def State.reuseTag (s : State) (l : LaneId) (tag : Tag) : State :=
  match (s.lane l).tracker.find tag with
  | some _ => s.abandon l (fun q => decide (q = tag))
  | none => s

/-- The tracker's part of a COMMAND of a tracked kind (R19, R21, R22). -/
def State.takeCommand (s : State) (l : LaneId) (tag : Tag) (o : Operation) : State :=
  (s.reuseTag l tag).modifyLane l (Lane.track tag o)

/-- COMMAND_READ (R5, R13, R19, R21, R22). -/
def execCommandRead (lane : LaneId) (tag : Tag) (start count : Nat) (s : State) :
    Host.Outcome State Fault Refusal :=
  let t := s.forwardFrame lane .towardDrive (.readCommand tag start count)
  if s.takesEvents lane then
    .next ((t.modifyLane lane (Lane.setSlot tag (some ⟨start, count⟩))).takeCommand lane tag
      (.read start count))
  else .next t

/-- COMMAND_WRITE (R5, R13, R19, R21, R22). -/
def execCommandWrite (lane : LaneId) (tag : Tag) (start count : Nat) (s : State) :
    Host.Outcome State Fault Refusal :=
  let t := s.forwardFrame lane .towardDrive (.writeCommand tag start count)
  if s.takesEvents lane then
    .next ((t.modifyLane lane (Lane.setSlot tag none)).takeCommand lane tag (.write start count))
  else .next t

/-- COMMAND_FLUSH (R5, R13, R19, R20, R21, R22): a record takes the flush number E. -/
def execCommandFlush (lane : LaneId) (tag : Tag) (s : State) : Host.Outcome State Fault Refusal :=
  let t := s.forwardFrame lane .towardDrive (.flushCommand tag)
  if s.takesEvents lane then
    .next ((t.modifyLane lane (Lane.setSlot tag none)).takeCommand lane tag
      (.flush (s.lane lane).tracker.epoch))
  else .next t

/-- COMMAND_DISCARD (R5, R13, R19, R21, R22). -/
def execCommandDiscard (lane : LaneId) (tag : Tag) (start count : Nat) (s : State) :
    Host.Outcome State Fault Refusal :=
  let t := s.forwardFrame lane .towardDrive (.discardCommand tag start count)
  if s.takesEvents lane then
    .next ((t.modifyLane lane (Lane.setSlot tag none)).takeCommand lane tag (.discard start count))
  else .next t

/-- COMMAND_OTHER (R5, R13, R21, R22): no record. A pending record of its tag is abandoned, which can end CLOSING
(R135). -/
def execCommandOther (lane : LaneId) (tag : Tag) (s : State) : Host.Outcome State Fault Refusal :=
  let t := s.forwardFrame lane .towardDrive (.otherCommand tag)
  if s.takesEvents lane then
    .next (((t.modifyLane lane (Lane.setSlot tag none)).reuseTag lane tag).settleClosing lane)
  else .next t

end Sys2Proof.Machine
end

