-- ==== Sys2Proof/Machine/Completions.lean ====
section
/-! DEFINITION. COMPLETE and JOB_COMPLETION (R7, R13, R24 to R26, R57, R58). -/

namespace Sys2Proof.Machine

/-- The error LBA of a COMPLETE event: absent whenever the status is GOOD (R7). -/
def eventErrorLba (status : Status) (errorLba : Option Nat) : Option Nat :=
  match status with
  | .good => none
  | .error => errorLba

/-- A record whose waiting sector has been dropped: its entry returns to NOT-CAPTURED and one job fewer is
outstanding (R25). -/
def Record.dropEntry (index : Nat) (r : Record) : Record :=
  { r with entries := r.entries.set index .notCaptured, outstanding := r.outstanding - 1 }

/-- A completion entered in a record, whose waiting sector, if any, is dropped (R25). -/
def State.enterCompletion (s : State) (l : LaneId) (r : Record) (c : Completion) : State :=
  match (s.lane l).tap.waiting with
  | some w =>
    if w.tag = r.tag then
      (s.dropWaiting l).enterRecord l { r.dropEntry w.index with completion := some c }
    else s.enterRecord l { r with completion := some c }
  | none => s.enterRecord l { r with completion := some c }

/-- The tracker's part of a COMPLETE: ignored for a tag that is not pending and for a record that has its completion
(R25). -/
def State.takeComplete (s : State) (l : LaneId) (tag : Tag) (c : Completion) : State :=
  match (s.lane l).tracker.find tag with
  | none => s
  | some r => if r.completion.isSome then s else s.enterCompletion l r c

/-- COMPLETE (R7, R13, R25). The frame is forwarded as the drive sent it. -/
def execComplete (lane : LaneId) (tag : Tag) (status : Status) (errorLba : Option Nat) (s : State) :
    Host.Outcome State Fault Refusal :=
  let t := s.forwardFrame lane .towardStation (.completion tag status errorLba)
  if s.takesEvents lane then
    .next ((t.modifyLane lane (Lane.setSlot tag none)).takeComplete lane tag
      ⟨status, eventErrorLba status errorLba⟩)
  else .next t

/-- The marker words a record keeps after a result for sector `index` with entry `e`: those of the marker sector
with the lowest index (R24). -/
def keepMarker (kept : Option MarkerCopy) (e : Entry) (index : Nat) (words : List Word) : Option MarkerCopy :=
  match e with
  | .marker _ _ =>
    match kept with
    | none => some ⟨index, words.take Config.markerWords⟩
    | some m => if index < m.index then some ⟨index, words.take Config.markerWords⟩ else kept
  | .notCaptured | .pending | .compared _ => kept

/-- A record with a job's result in the place of its PENDING entry (R24). -/
def Record.enterResult (index : Nat) (e : Entry) (words : List Word) (r : Record) : Record :=
  { r with
    entries := r.entries.set index e
    outstanding := r.outstanding - 1
    marker := keepMarker r.marker e index words }

/-- A job result reaching the tracker (R24, R57). -/
def State.takeResult (s : State) (f : Flight) : State :=
  match (s.lane f.lane).tracker.find f.job.tag with
  | none => s
  | some r =>
    if r.entries[f.job.index]? = some .pending then
      s.enterRecord f.lane
        (r.enterResult f.job.index (jobVerdict f.context f.job.direction f.job.words) f.job.words)
    else s

/-- JOB_COMPLETION (R57, R58): the buffer is freed, the result goes to the tracker unless the job carries the
discard mark, and the engine grants on (log 11). With no job in flight there is no completion (log 6). -/
def execJobCompletion (s : State) : Host.Outcome State Fault Refusal :=
  match s.engine.inFlight with
  | none => .next s
  | some f =>
    let t := { s with engine := { s.engine with inFlight := none } }.freeBuffer f.job.buffer
    .next (if f.discard then t else t.takeResult f).grant

end Sys2Proof.Machine
end

