-- ==== Sys2Proof/Machine/Presence.lean ====
section
/-! DEFINITION. Presence and link events: ATTACH, IDENTIFY_NEW_FORMAT, DETACH and LINK_RESET (R2, R3, R4). -/

namespace Sys2Proof.Machine

/-- A drive of sector size `size` attached on an ABSENT lane: PRESENT, IDLE, the lamp latch cleared (R2, R123,
R177). -/
def Lane.attach (size : SectorSize) (x : Lane) : Lane :=
  { x with
    tap := { x.tap with sectorSize := some size }
    run := { x.run with state := .idle }
    latch := false }

/-- A drive identifies on an ABSENT lane: attached if its format is supported (R2). -/
def State.identifyAbsent (s : State) (l : LaneId) (format : Nat) : State :=
  match SectorSize.ofFormat format with
  | some size => s.modifyLane l (Lane.attach size)
  | none => s

/-- ATTACH (R2). On a lane that is not ABSENT, or while the taps take no events, there is none (log 6). -/
def execAttach (lane : LaneId) (format : Nat) (s : State) : Host.Outcome State Fault Refusal :=
  if s.listening && !(s.lane lane).present then .next (s.identifyAbsent lane format) else .next s

/-- A DETACH sets the lamp latch in RUNNING, SUSPENDED, CLOSING and ISSUING (R177). -/
def RunState.latchesOnDetach : RunState → Bool
  | .running | .suspended | .closing | .issuing => true
  | .detached | .idle | .issued | .rejected => false

/-- What a DETACH leaves of a lane whose records and jobs are already gone: the tap's power-on values, epoch 0,
pacing code 1, empty map and list, a Run Controller as at power-on, and the untracked counter (R3, R41, R49, R91,
R110, R124, R177). -/
def Lane.detach (x : Lane) : Lane where
  tap := .initial
  tracker := { x.tracker with epoch := 0 }
  capture := { x.capture with pacing := 1 }
  coverage := .initial
  defects := .initial
  run := .initial
  latch := x.latch || x.run.state.latchesOnDetach

/-- A DETACH taken on lane `l` (R3, R41, R60, R124, R166). -/
def State.detach (s : State) (l : LaneId) (cut : Bool) : State :=
  let t := ((s.modifyLane l (fun x => x.modifyTracker (Tracker.abandon (fun _ => true)))).resetCapture l
    cut).modifyLane l Lane.detach
  { t with store := t.store.laneDetached l }

/-- DETACH (R3). Loss of presence on an ABSENT lane is not an event. -/
def execDetach (lane : LaneId) (cut : Bool) (s : State) : Host.Outcome State Fault Refusal :=
  if s.takesEvents lane then .next (s.detach lane cut) else .next s

/-- IDENTIFY_NEW_FORMAT (R2): DETACH, then ATTACH if the new format is supported. A drive that identifies again with
the recorded format makes no event. -/
def execIdentifyNewFormat (lane : LaneId) (format : Nat) (cut : Bool) (s : State) :
    Host.Outcome State Fault Refusal :=
  if s.takesEvents lane && decide (SectorSize.ofFormat format ≠ (s.lane lane).tap.sectorSize) then
    .next ((s.detach lane cut).identifyAbsent lane format)
  else .next s

/-- The lane's own part of a LINK RESET: the read address table emptied, the CACHED extents removed (R4, R104). -/
def Lane.linkReset (x : Lane) : Lane :=
  { x with
    tap := { x.tap with readTable := Vector.replicate 32 none }
    coverage := x.coverage.dropCached }

/-- LINK_RESET (R4, R40, R60, R104, R147): the records are abandoned, the pool and engine reset the lane, CACHED
credit goes, the LINK_RESET group is taken, and CLOSING ends if it was waiting on the table. In CLOSING the group is
tallied before the end of CLOSING takes the snapshot, so the certificate counts it; R147 lets the group and the
abandonment come in either order (DESIGN CHOICE, unsafe, log 32). -/
def execLinkReset (lane : LaneId) (cut : Bool) (s : State) : Host.Outcome State Fault Refusal :=
  if s.takesEvents lane then
    .next
      ((((s.modifyLane lane (fun x => x.modifyTracker (Tracker.abandon (fun _ => true)))).resetCapture lane
        cut).modifyLane lane (fun x => x.linkReset.takeGroup [⟨.linkReset, none⟩])).settleClosing lane)
  else .next s

end Sys2Proof.Machine
end

