-- ==== Sys2Proof/Machine/Sectors.lean ====
section
/-! DEFINITION. Data sectors: DATA and WAITING_SECTOR_START (R6, R11, R13, R14, R23, R45, R46, R48). -/

namespace Sys2Proof.Machine

/-- The LBA the tap finds for a sector toward the station (R13). -/
def Tap.lbaOf (t : Tap) (tag : Tag) (index : Nat) : Option Nat :=
  match t.readTable[tag.val] with
  | some slot => if index < slot.count then some (slot.start + index) else none
  | none => none

/-- A report is substituted in ISSUED and REJECTED (R14). -/
def RunState.substitutes : RunState → Bool
  | .issued | .rejected => true
  | .detached | .idle | .running | .suspended | .closing | .issuing => false

/-- The sector that takes the place of the drive's, when the report is substituted: the sector is read, the lane is
in ISSUED or REJECTED, and the sector's LBA is the anchor (R14, R15). -/
def Lane.substitution (x : Lane) (d : Direction) (tag : Tag) (index : Nat) : Option (List Word) :=
  match d, x.run.anchor, x.tap.lbaOf tag index, x.tap.sectorSize with
  | .towardStation, some anchor, some lba, some size =>
    if x.run.state.substitutes ∧ lba = anchor then x.run.held.words.map (reportSector size) else none
  | _, _, _, _ => none

/-- A record captures the sectors of direction `d`: a WRITE those toward the drive, a READ those toward the station
in RUNNING (R23). -/
def Operation.captures (o : Operation) (state : RunState) (d : Direction) : Bool :=
  match o, d with
  | .write _ _, .towardDrive => true
  | .read _ _, .towardStation => decide (state = .running)
  | _, _ => false

/-- A record's sector is capturable: the conditions of R23 after the tag is found pending. -/
def Record.canCapture (r : Record) (state : RunState) (d : Direction) (index : Nat) : Bool :=
  r.completion.isNone && decide (index < r.operation.count)
    && decide (r.entries[index]? = some .notCaptured) && r.operation.captures state d

/-- The record whose sector the DATA event captures, with its entry PENDING and one more job outstanding, if the
sector is capturable (R23). -/
def Lane.captureEntry (x : Lane) (tag : Tag) (d : Direction) (index : Nat) : Option Record :=
  match x.tracker.find tag with
  | none => none
  | some r =>
    if r.canCapture x.run.state d index then
      some { r with entries := r.entries.set index .pending, outstanding := r.outstanding + 1 }
    else none

/-- A job joins the tail of the lane's queue, and the hold rule is applied (R45, R48, R50). Its sector is now the
one crossing the tap. -/
def Lane.join (j : Job) (x : Lane) : Lane :=
  ((x.modifyCapture (fun c => { c with queue := c.queue ++ [j] })).modifyTap
    (fun t => { t with crossing := some j.buffer })).afterJoin

/-- A capturable sector lent buffer `b`, the others free being `rest` (R45). -/
def State.capture (s : State) (l : LaneId) (j : Job) (rest : List BufferId) : State :=
  ({ s with pool := { s.pool with freeBuffers := rest } }.modifyLane l (Lane.join j)).grant

/-- A capturable sector with no FREE buffer: stopped at the boundary, the pool reason set, the lane at the tail of
the waiting list (R11, R46). -/
def State.stopSector (s : State) (l : LaneId) (w : Waiting) : State :=
  { s with pool := { s.pool with waitingList := s.pool.waitingList ++ [l] } }.modifyLane l (fun x =>
    x.modifyTap (fun t => { t with waiting := some w, poolReason := true }))

/-- A sector that starts and is not captured (R6, R23). -/
def State.passSector (s : State) (l : LaneId) : State :=
  s.modifyLane l (fun x => x.modifyTap (fun t => { t with crossing := none }))

/-- A DATA event taken on lane `l` (R6): the report is substituted (R14, R17), or the sector is captured (R45) or
stopped (R46), or it passes (R23). The words that pass into the
buffer, and out of a report, are formed from the link's bytes (R62). -/
def State.takeData (s : State) (l : LaneId) (tag : Tag) (d : Direction) (index : Nat) (bytes : List Byte) :
    State :=
  match (s.lane l).substitution d tag index with
  | some report =>
    ((s.forward l d (.sector tag index (linkBytes report))).passSector l).modifyLane l
      (fun x => x.modifyTap (fun t => { t with reportReady := false }))
  | none =>
    match (s.lane l).captureEntry tag d index with
    | none => (s.forward l d (.sector tag index bytes)).passSector l
    | some r =>
      let t := s.modifyLane l (fun x => x.modifyTracker (fun k => k.replace r))
      match s.pool.freeBuffers with
      | b :: rest =>
        (t.forward l d (.sector tag index bytes)).capture l
          { tag := tag, index := index, direction := d, buffer := b, words := linkWords bytes } rest
      | [] => t.stopSector l { tag := tag, direction := d, index := index }

/-- A data sector can start on the lane: it is released, and no waiting sector stands before the sector (R6, R9,
R11, log 12). -/
def Lane.lineClear (x : Lane) : Bool := !x.held && x.tap.waiting.isNone

/-- DATA (R6). A held lane takes no DATA event and the sector stays with its sender. A tap that takes no events
forwards the sector (R1, R180). -/
def execData (lane : LaneId) (tag : Tag) (direction : Direction) (index : Nat) (bytes : List Byte)
    (s : State) : Host.Outcome State Fault Refusal :=
  if s.takesEvents lane then
    if (s.lane lane).lineClear then .next (s.takeData lane tag direction index bytes) else .next s
  else .next (s.forwardFrame lane direction (.sector tag index bytes))

/-- The lane after its waiting sector has left the boundary and its reservation has been used (R48). -/
def Lane.admitWaiting (j : Job) (x : Lane) : Lane :=
  ((x.modifyTap (fun t => { t with waiting := none })).modifyCapture
    (fun c => { c with reservation := none })).join j

/-- WAITING_SECTOR_START (R11, R48): the waiting sector starts into the reserved buffer. Without a reservation and a
waiting sector there is no such start (log 6). -/
def execWaitingSectorStart (lane : LaneId) (bytes : List Byte) (s : State) :
    Host.Outcome State Fault Refusal :=
  if s.takesEvents lane then
    match (s.lane lane).tap.waiting, (s.lane lane).capture.reservation with
    | some w, some b =>
      .next (((s.forward lane w.direction (.sector w.tag w.index bytes)).modifyLane lane
        (Lane.admitWaiting
          { tag := w.tag, index := w.index, direction := w.direction, buffer := b,
            words := linkWords bytes })).grant)
    | _, _ => .next s
  else .next s

end Sys2Proof.Machine
end

