-- ==== Sys2Proof/Machine/Starts.lean ====
section
/-! DEFINITION. The starts of the part (R179, R180), the loss of supply, and the end of the store's operations
(R161, R164, R165). -/

namespace Sys2Proof.Machine

/-- Every block except the Issue Store at its starting values (R179, R180). -/
def State.restartBlocks (s : State) : State :=
  { s with
    lanes := Vector.replicate 8 .initial
    pool := .initial
    engine := .initial }

/-- The Issue Store at power-on: STARTING, with its read begun. The unit number and the stored number survive
(R160, R179). -/
def Store.powerOn (t : Store) : Store :=
  { t with status := .starting, read := .inFlight, requests := [], writeInFlight := none }

/-- POWER_ON (R179). -/
def execPowerOn (s : State) : Host.Outcome State Fault Refusal :=
  .next { s.restartBlocks with powered := true, inReset := false, store := s.store.powerOn }

/-- The Issue Store at the assertion of a rack reset: a read in flight is abandoned, the queue emptied, and a write
in flight goes on (R180). -/
def Store.resetAsserted (t : Store) : Store := { t with read := .noRead, requests := [] }

/-- RACK_RESET (R180). Without supply there is no reset (log 6). -/
def execRackReset (s : State) : Host.Outcome State Fault Refusal :=
  if s.powered then
    .next { s.restartBlocks with inReset := true, store := s.store.resetAsserted }
  else .next s

/-- The Issue Store at the release of a rack reset: STARTING, and the read begins, or is put off until the write in
flight ends (R180). -/
def Store.resetReleased (t : Store) : Store :=
  { t with
    status := .starting
    read := if t.writeInFlight.isSome then .deferred else .inFlight }

/-- RACK_RESET_RELEASE (R180). Outside a rack reset there is no release (log 6). -/
def execRackResetRelease (s : State) : Host.Outcome State Fault Refusal :=
  if s.powered && s.inReset then
    .next { s with inReset := false, store := s.store.resetReleased }
  else .next s

/-- The number left in storage when supply is lost: as before, or the number being written (R161, remark). -/
def Store.numberAfterLoss (numberStored : Bool) (t : Store) : Nat :=
  match t.writeInFlight with
  | some w => if numberStored then w.number else t.storedNumber
  | none => t.storedNumber

/-- The Issue Store without supply: the unit number and the stored number alone survive (R160, log 8). -/
def Store.powerLost (numberStored : Bool) (t : Store) : Store where
  unitNumber := t.unitNumber
  storedNumber := t.numberAfterLoss numberStored
  status := .starting
  read := .noRead
  requests := []
  writeInFlight := none

/-- POWER_LOSS (R161, remark; log 8). -/
def execPowerLoss (numberStored : Bool) (s : State) : Host.Outcome State Fault Refusal :=
  .next
    { s.restartBlocks with
      powered := false, inReset := false, store := s.store.powerLost numberStored }

/-- START_UP_READ_END (R161): READY with the number read, or DEGRADED. With no read in flight there is no end of one
(log 6). -/
def execStartUpReadEnd (success : Bool) (s : State) : Host.Outcome State Fault Refusal :=
  if s.store.read = .inFlight then
    .next
      { s with
        store :=
          { s.store with
            read := .noRead
            status := if success then .ready else .degraded } }.serveAll
  else .next s

/-- STORE_WRITE_END (R164, R165, R180): the number is stored on success, the lane is answered unless it has gone, and
the store serves on. With no write in flight there is no end of one (log 6). -/
def execStoreWriteEnd (success : Bool) (s : State) : Host.Outcome State Fault Refusal :=
  match s.store.writeInFlight with
  | none => .next s
  | some w =>
    let t := { s with store := s.store.writeEnded success w }
    .next (if w.laneGone then t else t.modifyLane w.lane (Lane.answerWrite success w.number)).serveAll

end Sys2Proof.Machine
end

