-- ==== Sys2Proof/Machine/Dispatch.lean ====
section
/-! DEFINITION. The meaning of each command: one arm per row of opcode_table.json. -/

namespace Sys2Proof.Machine

def exec (i : Instr) (s : State) : Host.Outcome State Fault Refusal :=
  match i with
  | .powerOn => Sys2Proof.Machine.execPowerOn s
  | .rackReset => Sys2Proof.Machine.execRackReset s
  | .rackResetRelease => Sys2Proof.Machine.execRackResetRelease s
  | .attach lane format => Sys2Proof.Machine.execAttach lane format s
  | .identifyNewFormat lane format cut => Sys2Proof.Machine.execIdentifyNewFormat lane format cut s
  | .detach lane cut => Sys2Proof.Machine.execDetach lane cut s
  | .linkReset lane cut => Sys2Proof.Machine.execLinkReset lane cut s
  | .commandRead lane tag start count => Sys2Proof.Machine.execCommandRead lane tag start count s
  | .commandWrite lane tag start count => Sys2Proof.Machine.execCommandWrite lane tag start count s
  | .commandFlush lane tag => Sys2Proof.Machine.execCommandFlush lane tag s
  | .commandDiscard lane tag start count => Sys2Proof.Machine.execCommandDiscard lane tag start count s
  | .commandOther lane tag => Sys2Proof.Machine.execCommandOther lane tag s
  | .data lane tag direction index bytes => Sys2Proof.Machine.execData lane tag direction index bytes s
  | .complete lane tag status errorLba => Sys2Proof.Machine.execComplete lane tag status errorLba s
  | .jobCompletion => Sys2Proof.Machine.execJobCompletion s
  | .waitingSectorStart lane bytes => Sys2Proof.Machine.execWaitingSectorStart lane bytes s
  | .stallExpiry lane => Sys2Proof.Machine.execStallExpiry lane s
  | .drainExpiry lane => Sys2Proof.Machine.execDrainExpiry lane s
  | .startUpReadEnd success => Sys2Proof.Machine.execStartUpReadEnd success s
  | .storeWriteEnd success => Sys2Proof.Machine.execStoreWriteEnd success s
  | .powerLoss numberStored => Sys2Proof.Machine.execPowerLoss numberStored s

end Sys2Proof.Machine
end

