-- ==== Sys2Proof/Machine/Step.lean ====
section
/-! DEFINITION. One step: the command at the front of the queue, or one second when no command waits. -/

namespace Sys2Proof.Machine

/-- One step of the part. The command at the front of the queue is taken, with the queue's rest. On an empty queue
one second passes, with the expiries that fall in it (DESIGN CHOICE, unsafe, log 4). -/
def step (s : State) : Host.Outcome State Fault Refusal :=
  match s.pending with
  | [] => .next (s.second [])
  | i :: rest => exec i { s with pending := rest }

/-- The part with the command that a word spells put at the front of its queue. No word spells a command. -/
def State.withFetchWord (s : State) (nbits w : Nat) : State :=
  match decodeTableWord nbits w with
  | some i => { s with pending := i :: s.pending }
  | none => s

end Sys2Proof.Machine
end

