-- ==== Sys2Proof/Machine/Flags.lean ====
section
/-! DEFINITION. What the rack sees, computed from the state: lamps, their elements and the alert line (R176,
R178). -/

namespace Sys2Proof.Machine

/-- The seven indications of a lamp ("Lamps"). -/
inductive Indication where
  | off
  | ready
  | active
  | paused
  | pass
  | noted
  | fail
  deriving DecidableEq, Repr

/-- How one element of a lamp is driven ("Lamps"). -/
inductive ElementDrive where
  | dark
  | blink
  | flash
  | steady
  deriving DecidableEq, Repr

/-- The green and red elements of an indication ("Lamps"): `blink` is lit for 0.2 s every 2 s, `flash` is 1 Hz. -/
def Indication.elements : Indication → ElementDrive × ElementDrive
  | .off => (.dark, .dark)
  | .ready => (.blink, .dark)
  | .active => (.flash, .dark)
  | .paused => (.flash, .flash)
  | .pass => (.steady, .dark)
  | .noted => (.steady, .steady)
  | .fail => (.dark, .steady)

/-- The indication in ISSUED, by the outcome (R176). -/
def issuedIndication (v : Option Verdict) : Indication :=
  match v with
  | some ⟨.clean, _⟩ => .pass
  | some ⟨.exceptions, _⟩ => .noted
  | some ⟨.failed, _⟩ => .fail
  | some ⟨.halted, _⟩ => .fail
  | some ⟨.rejected, _⟩ => .fail
  | none => .fail

/-- The indication a lane's run state, outcome and latch call for (R176). -/
def Lane.indication (x : Lane) : Indication :=
  match x.run.state with
  | .detached => if x.latch then .fail else .off
  | .idle => .ready
  | .running | .closing | .issuing => .active
  | .suspended => .paused
  | .issued => issuedIndication x.run.verdict
  | .rejected => .fail

/-- The lamp of a lane. Without supply and during a rack reset every lamp is OFF (R176, R180). -/
def State.lamp (s : State) (l : LaneId) : Indication :=
  if s.listening then (s.lane l).indication else .off

/-- A lane holds the alert line: its report-ready flag is set, or it is SUSPENDED (R178). -/
def Lane.alerts (x : Lane) : Bool := x.tap.reportReady || decide (x.run.state = .suspended)

/-- The alert line is asserted (R178). It is deasserted without supply and during a rack reset (R180). -/
def State.alertAsserted (s : State) : Bool := s.listening && s.lanes.toList.any Lane.alerts

end Sys2Proof.Machine
end

