-- ==== Sys2Proof/Safety.lean ====
section
/-! DEFINITION. The laws the rules state of every state the part can reach (`Sound`), all of them decidable, and the
words in which the statements say what a command leaves as it was. -/

namespace Sys2Proof.Safety

open Sys2Proof.Machine

/-! ## The Capture Pool and the Compare Engine (R42, R43, R46, R47, R48, R53) -/

/-- The buffers as they stand in the four conditions: FREE, RESERVED, QUEUED, ENGAGED (R42). -/
abbrev allBuffers (s : State) : List BufferId :=
  s.pool.freeBuffers ++ s.reservedBuffers ++ s.queuedBuffers ++ s.engagedBuffers

/-- The law of conservation of buffers: the four counts sum to 48, and no buffer is counted twice (R42). -/
abbrev BuffersConserved (s : State) : Prop :=
  (allBuffers s).length = Config.bufferCount ∧ (allBuffers s).Nodup

/-- The pool waiting list: no FREE buffer while it is not empty (R43), no lane on it twice, its lanes exactly those
with the pool reason, each with a sector stopped and nothing reserved (R46, R47). A sector stopped is owed a buffer or
waits for one, and a buffer is reserved only for a sector stopped (R48). -/
abbrev WaitingListLaw (s : State) : Prop :=
  (s.pool.waitingList ≠ [] → s.pool.freeBuffers = []) ∧ s.pool.waitingList.Nodup ∧
  ∀ l : LaneId,
    ((s.lane l).tap.poolReason = true ↔ l ∈ s.pool.waitingList) ∧
    ((s.lane l).tap.waiting.isSome = true ↔
      l ∈ s.pool.waitingList ∨ (s.lane l).capture.reservation.isSome = true) ∧
    ¬ (l ∈ s.pool.waitingList ∧ (s.lane l).capture.reservation.isSome = true)

/-- The engine is not free while a queue holds a job (R53). -/
abbrev EngineLaw (s : State) : Prop :=
  s.engine.inFlight.isNone = true → ∀ l : LaneId, (s.lane l).capture.queue = []

/-- The pool's and the engine's laws together. -/
abbrev PoolLaw (s : State) : Prop := BuffersConserved s ∧ WaitingListLaw s ∧ EngineLaw s

/-- A lane's queue against its levels: below the hold level while the trigger reason is clear, above the release level
while it is set (R50), at most 12 jobs, at most 11 while a sector waits to join them (R44). The pacing code is the
plan's while a run is active, and 1 otherwise (R49). -/
abbrev QueueLaw (x : Lane) : Prop :=
  (x.tap.trigger = false → x.capture.queue.length < holdLevel x.capture.pacing) ∧
  (x.tap.trigger = true → releaseLevel x.capture.pacing < x.capture.queue.length) ∧
  x.capture.queue.length ≤ 12 ∧
  (x.tap.waiting.isSome = true → x.capture.queue.length ≤ 11) ∧
  (x.run.state.active = true → ∀ p ∈ x.run.plan, x.capture.pacing = p.pacing) ∧
  (x.run.state.active = false → x.capture.pacing = 1)

/-! ## The Command Tracker (R18, R19, R24, R25, R26, R44) -/

/-- A pending record: one entry per sector, as many jobs outstanding as PENDING entries, and with its completion in it
still awaits a result, or it would have retired (R19, R23, R26). -/
abbrev RecordLaw (r : Record) : Prop :=
  r.entries.length = r.operation.count ∧ r.outstanding = r.entries.count .pending ∧
  (r.completion.isSome = true → 0 < r.outstanding)

/-- The pending command table: at most 16 records, no two with one tag, and the counters in their ranges (R18, R20,
R21). -/
abbrev TableLaw (t : Tracker) : Prop :=
  t.records.length ≤ Config.tableSize ∧ (t.records.map Record.tag).Nodup ∧ t.epoch ≤ Config.max32 ∧
  t.untracked ≤ Config.max16 ∧ ∀ r ∈ t.records, RecordLaw r

/-- The sectors of lane `l` that await a result, each by its tag and sector index: its queued jobs, its job in flight
without the discard mark, and its waiting sector. -/
abbrev awaited (s : State) (l : LaneId) : List (Tag × Nat) :=
  (s.lane l).capture.queue.map (fun j => (j.tag, j.index)) ++
  (s.engine.inFlight.toList.filter (fun f => decide (f.lane = l) && !f.discard)).map
    (fun f => (f.job.tag, f.job.index)) ++
  (s.lane l).tap.waiting.toList.map (fun w => (w.tag, w.index))

/-- The sectors of lane `l` whose entries are PENDING. -/
abbrev pendingEntries (s : State) (l : LaneId) : List (Tag × Nat) :=
  (s.lane l).tracker.records.flatMap (fun r =>
    (r.entries.zipIdx.filter (fun q => decide (q.1 = .pending))).map (fun q => (r.tag, q.2)))

/-- Each PENDING entry has exactly one sector that will bring its result, and each such sector a PENDING entry of a
pending record (R23, R24, R44). A waiting sector's record has no completion (R25). -/
abbrev JobLaw (s : State) (l : LaneId) : Prop :=
  (awaited s l).Nodup ∧ (∀ q ∈ awaited s l, q ∈ pendingEntries s l) ∧
  (∀ q ∈ pendingEntries s l, q ∈ awaited s l) ∧
  ∀ w ∈ (s.lane l).tap.waiting, ∀ r ∈ (s.lane l).tracker.records, r.tag = w.tag → r.completion.isNone = true

/-! ## The Coverage Map (R88, R89, R90) -/

/-- Two extents in order stand apart, or touch in different states (R90). -/
abbrev apart (x y : Extent) : Prop :=
  x.last < y.first ∧ (x.last + 1 = y.first → (x.credit.join y.credit).isNone = true)

/-- The form every operation leaves the extent list in: at most 64 extents, each a run of LBAs, ordered and disjoint,
no two touching extents in one state (R90). -/
abbrev MapForm (m : List Extent) : Prop :=
  m.length ≤ Config.extentLimit ∧ (∀ x ∈ m, x.first ≤ x.last) ∧ m.Pairwise apart

/-- The epoch an extent carries. -/
abbrev epochOf (x : Extent) : Option Nat :=
  match x.credit with
  | .cached e => some e
  | .written => none
  | .verified => none

/-- A lane's map: its form; its extents in the plan's target range (R90); no CACHED extent under flush flag 0 (R88);
every epoch at or below E (R89); the uncredited counter in its range (R108). -/
abbrev MapLaw (x : Lane) : Prop :=
  MapForm x.coverage.extents ∧
  (∀ p ∈ x.run.plan, ∀ y ∈ x.coverage.extents,
    p.first ≤ y.first ∧ y.last ≤ p.last ∧ (p.flush = false → y.isCached = false)) ∧
  (∀ y ∈ x.coverage.extents, ∀ e ∈ epochOf y, e ≤ x.tracker.epoch) ∧
  x.coverage.uncredited ≤ Config.max32

/-! ## The Defect List (R100, R109, R112, R114) -/

/-- Two entries in order: disjoint, and if adjacent with one kind and one pass, too large to be one (R109, R112). -/
abbrev entriesApart (e f : DefectEntry) : Prop :=
  e.first + e.count ≤ f.first ∧
  (e.first + e.count = f.first → e.kind = f.kind → e.pass = f.pass → Config.entryCountMax < e.count + f.count)

/-- The form of the Defect List: at most 24 entries, of 1 to 65535 sectors, ordered, disjoint and joined, the total the
sum of their counts (R109, R112, R114). -/
abbrev ListForm (d : DefectList) : Prop :=
  d.entries.length ≤ Config.entryLimit ∧ (∀ e ∈ d.entries, 1 ≤ e.count ∧ e.count ≤ Config.entryCountMax) ∧
  d.entries.Pairwise entriesApart ∧ d.total = (d.entries.map DefectEntry.count).sum ∧
  d.unlisted ≤ Config.max32

/-- A lane's list: its form, its entries in the plan's target range, and no sector both in an entry and in an extent
(R100, R109). -/
abbrev DefectLaw (x : Lane) : Prop :=
  ListForm x.defects ∧
  (∀ p ∈ x.run.plan, ∀ e ∈ x.defects.entries, p.first ≤ e.first ∧ e.first + e.count ≤ p.last + 1) ∧
  ∀ e ∈ x.defects.entries, ∀ y ∈ x.coverage.extents, y.last < e.first ∨ e.first + e.count ≤ y.first

/-! ## The Run Controller (R78, R123, R129, R130, R134, R141, R142) -/

/-- A run has a plan record and a stamp from its acceptance until it is released, replaced or detached. -/
def hasRun : RunState → Bool
  | .running | .suspended | .closing | .issuing | .issued => true
  | .detached | .idle | .rejected => false

/-- The run has closed (08_runs_and_passes.md). -/
def hasClosed : RunState → Bool
  | .closing | .issuing | .issued => true
  | .detached | .idle | .running | .suspended | .rejected => false

/-- The kind of report a lane holds in a run state (R136, R137, R172). -/
def heldFits : RunState → HeldReport → Bool
  | .issuing, .pending _ => true
  | .issued, .certificate _ => true
  | .rejected, .rejection _ => true
  | .detached, .absent | .idle, .absent | .running, .absent | .suspended, .absent | .closing, .absent => true
  | _, _ => false

/-- What is present in which run state: plan record and stamp in a run, verdict after its close, refusal reason in
REJECTED, anchor and run id outside DETACHED and IDLE, and the report that fits the state (R78, R85, R86, R123,
R132, R136). -/
abbrev PresentLaw (c : RunControl) : Prop :=
  c.plan.isSome = hasRun c.state ∧ c.current.isSome = hasRun c.state ∧
  c.verdict.isSome = hasClosed c.state ∧
  c.refusal.isSome = decide (c.state = .rejected) ∧
  c.anchor.isSome = (hasRun c.state || decide (c.state = .rejected)) ∧
  c.runId.isSome = (hasRun c.state || decide (c.state = .rejected)) ∧
  heldFits c.state c.held = true

/-- The pass index lies between 1 and the plan's pass count, which is 1 to 4, the attempt between 1 and 255, and every
pass below the current one is complete (R81, R128, R130). -/
abbrev PassLaw (c : RunControl) : Prop :=
  ∀ p ∈ c.plan, ∀ t ∈ c.current,
    1 ≤ p.passes.length ∧ p.passes.length ≤ 4 ∧ 1 ≤ t.pass ∧ t.pass ≤ p.passes.length ∧
    1 ≤ t.attempt ∧ t.attempt ≤ Config.maxAttempt ∧
    ∀ i : Fin 4, i.val + 1 < t.pass → c.passRecords[i.val].status = .complete

/-- The timers of a run stand below their limits, since one that has counted up to its limit expires (R134, R135,
R142). The drain timer stands at 0 outside CLOSING, the stall timer at 0 outside RUNNING and SUSPENDED, the run clock
at 0 outside a run, and the counters in their ranges (R30, R141, R143, R145). -/
abbrev ClockLaw (c : RunControl) : Prop :=
  (c.state = .running ∨ c.state = .suspended → c.stallTimer < c.limit) ∧
  (c.state = .closing → c.drainTimer < c.limit) ∧
  (c.state ≠ .running → c.state ≠ .suspended → c.stallTimer = 0) ∧ (c.state ≠ .closing → c.drainTimer = 0) ∧
  (hasRun c.state = false → c.runClock = 0) ∧ c.runClock ≤ Config.max32 ∧ c.stale ≤ Config.max16 ∧
  ∀ i : Fin 7, c.tallies[i.val] ≤ Config.max16

/-- A lane's run: what is present, its pass, its clocks. In CLOSING a record is still pending, or CLOSING would have
ended (R135). -/
abbrev RunLaw (x : Lane) : Prop :=
  PresentLaw x.run ∧ PassLaw x.run ∧ ClockLaw x.run ∧
  (x.run.state = .closing → x.tracker.records ≠ [])

/-- A lane is DETACHED exactly while its tap is ABSENT. Then its table and queue are empty, no sector waits and it
holds no report-ready flag (R1, R3, R18, R44, R123, R124). -/
abbrev PresenceLaw (x : Lane) : Prop :=
  (x.tap.sectorSize = none ↔ x.run.state = .detached) ∧
  (x.tap.sectorSize = none → x.tracker.records = [] ∧ x.capture.queue = [] ∧ x.tap.waiting = none ∧
    x.tap.reportReady = false)

/-! ## Verdicts and certificates (R131, R136, R138, R139, R164) -/

/-- The outcome is CLEAN or EXCEPTIONS. -/
def RunOutcome.good : RunOutcome → Bool
  | .clean | .exceptions => true
  | .failed | .halted | .rejected => false

/-- A good verdict's claims: every pass of the plan complete, no unlisted defect, the total within the allowance, and 0
for CLEAN (R131). -/
abbrev VerdictLaw (x : Lane) : Prop :=
  ∀ v ∈ x.run.verdict, RunOutcome.good v.outcome = true → ∀ p ∈ x.run.plan,
    x.defects.unlisted = 0 ∧ x.defects.total ≤ p.allowance ∧ (v.outcome = .clean → x.defects.total = 0) ∧
    ∀ i : Fin 4, i.val < p.passes.length → x.run.passRecords[i.val].status = .complete

/-- The certificate a held report contains. -/
def certificateOf : HeldReport → Option Certificate
  | .pending c => some c
  | .certificate c => some c
  | .absent => none
  | .rejection _ => none

/-- A certificate, pending or held, says what the lane's own state says: the verdict, the plan's fields, the pass records
and the defects (R136, R138, R139). -/
abbrev CertificateLaw (x : Lane) : Prop :=
  ∀ c ∈ certificateOf x.run.held, x.run.verdict = some c.verdict ∧ c.passRecords = x.run.passRecords ∧
    c.entries = x.defects.entries ∧ c.total = x.defects.total ∧ c.unlisted = x.defects.unlisted ∧
    ∀ p ∈ x.run.plan, c.first = p.first ∧ c.last = p.last ∧ c.runId = p.runId ∧ c.size = p.size ∧
      c.allowance = p.allowance ∧ c.passCount = p.passes.length

/-- The issue number of the certificate a lane holds, 0 where it holds none (R167). -/
def issueNumberOf (x : Lane) : Nat :=
  match x.run.held with
  | .certificate c => c.issueNumber
  | .absent => 0
  | .pending _ => 0
  | .rejection _ => 0

/-- No held certificate's number is above the stored one, and no two lanes hold the same number but 0 (R164). -/
abbrev NumbersLaw (s : State) : Prop :=
  ∀ l : LaneId, issueNumberOf (s.lane l) ≤ s.store.storedNumber ∧
    ∀ m : LaneId, l ≠ m → issueNumberOf (s.lane l) ≠ 0 →
      issueNumberOf (s.lane l) ≠ issueNumberOf (s.lane m)

/-! ## The Issue Store (R160, R162, R163, R164, R180) -/

/-- The store is answering requests: supply is present, no rack reset, and the start-up read has ended. -/
abbrev storeOpen (s : State) : Bool := s.listening && decide (s.store.status ≠ .starting)

/-- The request being served builds on the stored number, a 32-bit number, by 1 (R163, R164). The queue holds no lane
twice, and is not empty only while a write is in flight (R162, R163). The start-up read is not in flight beside a write,
and is over once the status has left STARTING (R161, R180). Until the store has read its number, and during a rack reset,
no lane has a run (R160, R180), and without supply or in a rack reset every lane is ABSENT (R1, R180). A lane is ISSUING
exactly while it is in the queue or its own unmarked write is in flight, and then not both (R137, R162, R166). -/
abbrev IssueLaw (s : State) : Prop :=
  s.store.storedNumber ≤ Config.max32 ∧
  (∀ w ∈ s.store.writeInFlight,
    w.number = s.store.storedNumber + 1 ∧ s.store.storedNumber < Config.max32 ∧
    (storeOpen s = true → s.store.status = .ready) ∧
    (w.laneGone = false → w.lane ∉ s.store.requests)) ∧
  s.store.requests.Nodup ∧ (s.store.requests ≠ [] → s.store.writeInFlight.isSome = true) ∧
  (s.store.read ≠ .noRead → s.store.status = .starting) ∧
  (s.store.read = .inFlight → s.store.writeInFlight = none) ∧
  (s.listening = false → ∀ l : LaneId, (s.lane l).tap.sectorSize = none) ∧
  (storeOpen s = false → s.store.requests = [] ∧ ∀ l : LaneId, hasRun (s.lane l).run.state = false) ∧
  ∀ l : LaneId, (s.lane l).run.state = .issuing ↔
    l ∈ s.store.requests ∨ (storeOpen s = true ∧
      (s.store.writeInFlight.toList.any (fun w => decide (w.lane = l) && !w.laneGone)) = true)

/-! ## Everything -/

/-- The laws of one lane. -/
abbrev LaneLaw (x : Lane) : Prop :=
  QueueLaw x ∧ TableLaw x.tracker ∧ MapLaw x ∧ DefectLaw x ∧ RunLaw x ∧ PresenceLaw x ∧ VerdictLaw x ∧
  CertificateLaw x

/-- Every law of this file. -/
abbrev Sound (s : State) : Prop :=
  PoolLaw s ∧ NumbersLaw s ∧ IssueLaw s ∧ ∀ l : LaneId, LaneLaw (s.lane l) ∧ JobLaw s l

/-! ## What a command leaves as it was -/

/-- The shared blocks stand as they were. -/
abbrev SharedKept (s t : State) : Prop :=
  t.powered = s.powered ∧ t.inReset = s.inReset ∧ t.pool = s.pool ∧ t.engine = s.engine ∧ t.store = s.store ∧
  t.pending = s.pending

/-- The shared blocks but the Capture Pool and the Compare Engine stand as they were. -/
abbrev SharedKeptButCapture (s t : State) : Prop :=
  t.powered = s.powered ∧ t.inReset = s.inReset ∧ t.store = s.store ∧ t.pending = s.pending

/-- The other lanes and their links stand as they were. -/
abbrev OthersKept (l : LaneId) (s t : State) : Prop :=
  ∀ m : LaneId, m ≠ l → t.lane m = s.lane m ∧ t.link m = s.link m

/-- Lane `y` is lane `x` but for what a buffer handed over and a grant can change: the queue, the reservation and the
two hold reasons (R47, R53). -/
abbrev KeptButCapture (x y : Lane) : Prop :=
  y = { x with
    tap := { x.tap with trigger := y.tap.trigger, poolReason := y.tap.poolReason }
    capture := { x.capture with queue := y.capture.queue, reservation := y.capture.reservation } }

/-- The other lanes stand as they were but for their places in the pool, and their links are untouched. -/
abbrev OthersKeptButCapture (l : LaneId) (s t : State) : Prop :=
  ∀ m : LaneId, m ≠ l → KeptButCapture (s.lane m) (t.lane m) ∧ t.link m = s.link m

/-- The link has taken one more item in one direction, and nothing else (R8). -/
abbrev Forwarded (d : Direction) (item : Traffic) (a b : Link) : Prop :=
  match d with
  | .towardDrive => b = { a with toDrive := a.toDrive ++ [item] }
  | .towardStation => b = { a with toStation := a.toStation ++ [item] }

/-- Buffer `b` has been freed: it is reserved for the lane at the head of the waiting list, whose pool reason is
cleared, or FREE when the list is empty (R47). -/
abbrev BufferFreed (b : BufferId) (s t : State) : Prop :=
  match s.pool.waitingList with
  | [] => b ∈ t.pool.freeBuffers
  | m :: rest =>
    (t.lane m).capture.reservation = some b ∧ (t.lane m).tap.poolReason = false ∧ t.pool.waitingList = rest

/-! ## Lanes at their starting values -/

/-- A lane without run, records, jobs, credit or defects, and with its tap's starting values (R1, R3, R18, R41, R42, R49,
R60, R91, R110, R123, R124). -/
abbrev LaneEmptied (x : Lane) : Prop :=
  x.tap.sectorSize = none ∧ x.tap.trigger = false ∧ x.tap.poolReason = false ∧ x.tap.waiting = none ∧
  (∀ tag : Tag, x.tap.readTable[tag.val] = none) ∧ x.tap.reportReady = false ∧
  x.tracker.records = [] ∧ x.tracker.epoch = 0 ∧
  x.capture.queue = [] ∧ x.capture.reservation = none ∧ x.capture.pacing = 1 ∧
  x.coverage.extents = [] ∧ x.coverage.uncredited = 0 ∧
  x.defects.entries = [] ∧ x.defects.unlisted = 0 ∧ x.defects.total = 0

/-- A Run Controller at its starting values (R123, R144). -/
abbrev RunStarts (c : RunControl) : Prop :=
  c.state = .detached ∧ c.anchor = none ∧ c.runId = none ∧ c.plan = none ∧ c.refusal = none ∧
  c.current = none ∧ c.runClock = 0 ∧ c.stallTimer = 0 ∧ c.drainTimer = 0 ∧ c.verdict = none ∧ c.stale = 0 ∧
  c.held = .absent ∧ c.firstFault = none ∧ (∀ i : Fin 7, c.tallies[i.val] = 0) ∧
  ∀ i : Fin 4, c.passRecords[i.val] =
    { kind := .fill, verify := .none, status := .notReached, attempts := 0, written := 0, verified := 0,
      seconds := 0 }

/-- The lanes, the pool and the engine at their starting values, every lamp OFF, the alert line deasserted (R42, R52,
R177, R178, R179). -/
abbrev BlocksStart (t : State) : Prop :=
  (∀ l : LaneId, LaneEmptied (t.lane l) ∧ RunStarts (t.lane l).run ∧ (t.lane l).tracker.untracked = 0 ∧
    (t.lane l).latch = false ∧ t.lamp l = .off) ∧
  t.alertAsserted = false ∧ t.pool.freeBuffers.length = 48 ∧ (∀ b : BufferId, b ∈ t.pool.freeBuffers) ∧
  t.pool.waitingList = [] ∧ t.engine.lastGranted = 7 ∧ t.engine.inFlight = none

/-! ## Commands and records -/

/-- A READ, with its start and count in the record. -/
def isRead : Operation → Bool
  | .read _ _ => true
  | .write _ _ | .flush _ | .discard _ _ => false

/-- The record a COMMAND opens (R19). -/
abbrev openedRecord (tag : Tag) (o : Operation) (stamp : Option Stamp) : Record where
  tag := tag
  operation := o
  stamp := stamp
  entries := List.replicate o.count .notCaptured
  marker := none
  outstanding := 0
  completion := none

/-- The stamp a command takes: the current stamp while a run is active, else none (R19). -/
abbrev stampTaken (c : RunControl) : Option Stamp :=
  match c.state with
  | .running | .suspended | .closing => c.current
  | .detached | .idle | .issuing | .issued | .rejected => none

/-- The tap's read address table with one slot set (R13). -/
abbrev withSlot (tag : Tag) (slot : Option ReadSlot) (t : Tap) : Tap :=
  { t with readTable := t.readTable.set tag.val slot }

/-- The tag is pending on the lane (R18). -/
abbrev tagPending (tag : Tag) (x : Lane) : Prop := ∃ r ∈ x.tracker.records, r.tag = tag

/-- The records with that of one tag changed by `f`. -/
abbrev mapTag (tag : Tag) (f : Record → Record) (rs : List Record) : List Record :=
  rs.map (fun r => if r.tag = tag then f r else r)

/-- The records without that of one tag. -/
abbrev withoutTag (tag : Tag) (rs : List Record) : List Record := rs.filter (fun r => decide (r.tag ≠ tag))

/-- The conditions of R23 on the record of a pending tag. -/
abbrev Capturable (r : Record) (state : RunState) (d : Direction) (index : Nat) : Prop :=
  r.completion = none ∧ index < r.operation.count ∧ r.entries[index]? = some .notCaptured ∧
  ((r.operation.isWrite = true ∧ d = .towardDrive) ∨
    (isRead r.operation = true ∧ d = .towardStation ∧ state = .running))

/-- A record ready to retire at a COMPLETE of its tag: it is pending and no result is outstanding (R26). -/
abbrev ReadyToRetire (r : Record) (x : Lane) : Prop := r ∈ x.tracker.records ∧ r.outstanding = 0

/-- The context a job of lane `x` takes at its grant: from its record `r`, the LBA of its sector, and the plan while a run
is active (R54). -/
abbrev contextOf (r : Record) (j : Job) (x : Lane) : GrantContext where
  operation := r.operation
  stamp := r.stamp
  lba := r.operation.start + j.index
  plan := if x.run.state.active = true then x.run.plan else none

/-- The job at the head of lane `l`'s queue, with `rest` behind it, is the next to be granted: lane `l` is the first with a
job, searching from the lane after the last-granted one (R53). -/
abbrev NextGranted (l : LaneId) (j : Job) (rest : List Job) (s : State) : Prop :=
  (s.lane l).capture.queue = j :: rest ∧ ∀ m : LaneId, (s.lane m).capture.queue ≠ [] →
    (l - s.engine.lastGranted - 1).val ≤ (m - s.engine.lastGranted - 1).val

/-- The engine, free again, has granted the head job of the first lane in search order, which left its queue, with the
context of its record, run state and plan as they now stand. With every queue empty it stays free, and no other queue
has changed (R50, R53, R54). -/
abbrev GrantedOn (s t : State) : Prop :=
  ((∀ m : LaneId, (s.lane m).capture.queue = []) → t.engine = { s.engine with inFlight := none }) ∧
  ∀ (l : LaneId) (j : Job) (rest : List Job), NextGranted l j rest s →
    t.engine.lastGranted = l ∧ (t.lane l).capture.queue = rest ∧
    (rest.length ≤ releaseLevel (t.lane l).capture.pacing → (t.lane l).tap.trigger = false) ∧
    (∃ r ∈ (t.lane l).tracker.records, r.tag = j.tag ∧
      t.engine.inFlight = some
        { lane := l, job := j, context := some (contextOf r j (t.lane l)), discard := false }) ∧
    ∀ m : LaneId, m ≠ l → (t.lane m).capture.queue = (s.lane m).capture.queue

/-- The job's words differ from the expected content at some word, where R56 calls for comparing (R56, R70). -/
abbrev Differs (f : Flight) : Prop :=
  ∃ c ∈ f.context, ∃ t ∈ c.stamp, ∃ p ∈ c.plan,
    p.first ≤ c.lba ∧ c.lba ≤ p.last ∧
    ((c.operation.isWrite = true ∧ f.job.direction = .towardDrive) ∨
      (isRead c.operation = true ∧ f.job.direction = .towardStation)) ∧
    ∃ k, k < (match p.size with | .bytes512 => 128 | .bytes4096 => 1024) ∧
      ¬ ∃ w, f.job.words[k]? = some w ∧ expectedWord p.passes t.pass c.lba k = some w

/-- The job's sector is a marker sector (R55). -/
abbrev CarriesSignature (j : Job) : Prop :=
  j.direction = .towardDrive ∧ j.words[0]? = some 0x6A4E31D7#32 ∧ j.words[1]? = some 0x9C15E2B8#32

/-! ## Formats: sectors on the link, plans and reports (R62, R173, R175) -/

/-- The words of a sector as the link carries them: word k of bytes 4k to 4k + 3, byte 4k the least significant (R62). -/
abbrev wordsOnLink (bytes : List Byte) : List Word :=
  (List.range (bytes.length / 4)).map (fun k => BitVec.ofNat 32
    ((bytes.getD (4 * k) 0).toNat + 256 * (bytes.getD (4 * k + 1) 0).toNat +
      65536 * (bytes.getD (4 * k + 2) 0).toNat + 16777216 * (bytes.getD (4 * k + 3) 0).toNat))

/-- Plan `p` holds the fields of the plan words `w`, pacing and stall selection clamped (R82, R84, R173). -/
abbrev PlanFields (size : SectorSize) (w : List Word) (p : Plan) : Prop :=
  p.runId = w.getD 4 0 ++ w.getD 3 0 ∧
  p.first = (w.getD 5 0).toNat + 4294967296 * (w.getD 6 0).toNat ∧
  p.last = (w.getD 7 0).toNat + 4294967296 * (w.getD 8 0).toNat ∧
  p.size = size ∧
  (p.flush = true ↔ (w.getD 9 0).toNat / 65536 % 256 = 1) ∧
  p.pacing.val = min ((w.getD 9 0).toNat / 16777216) 3 ∧
  p.stall.val = min ((w.getD 10 0).toNat / 65536 % 256) 7 ∧
  p.allowance = (w.getD 10 0).toNat % 65536 ∧
  (∀ i : Fin 7, p.actions[i.val].code = (w.getD (11 + i.val / 4) 0).toNat / 256 ^ (i.val % 4) % 256) ∧
  p.passes.length = (w.getD 9 0).toNat / 256 % 256 ∧
  ∀ i : Fin 4, ∀ d ∈ p.passes[i.val]?,
    d.kind.code = (w.getD (13 + 4 * i.val) 0).toNat % 256 ∧
    d.verify.code = (w.getD (13 + 4 * i.val) 0).toNat / 256 % 256 ∧
    d.operand1 = w.getD (14 + 4 * i.val) 0 ∧ d.operand2 = w.getD (15 + 4 * i.val) 0 ∧
    d.stride = (w.getD (16 + 4 * i.val) 0).toNat % 65536 ∧ d.phase = (w.getD (16 + 4 * i.val) 0).toNat / 65536

/-- The codes that plans and reports carry (11_sector_formats_indicators_and_start_up.md, "Codes"). -/
abbrev CodesAsGiven : Prop :=
  [SectorSize.bytes512, .bytes4096].map SectorSize.code = [0, 1] ∧
  [PatternKind.fill, .pair, .stream, .invert].map PatternKind.code = [0, 1, 2, 3] ∧
  [VerifyMode.none, .sampled, .full].map VerifyMode.code = [0, 1, 2] ∧
  [Action.note, .suspend, .restart, .fail].map Action.code = [0, 1, 2, 3] ∧
  [FaultClass.writeMismatch, .readMismatch, .mediumError, .foreignWrite, .stall, .defectOverrun, .linkReset].map
    FaultClass.code = [1, 2, 3, 4, 5, 6, 7] ∧
  [RunOutcome.clean, .exceptions, .failed, .halted, .rejected].map RunOutcome.code = [1, 2, 3, 4, 5] ∧
  [Reason.none, .halt, .lateWrite, .postWrite].map Reason.code = [0, 9, 10, 11] ∧
  (∀ c : FaultClass, (Reason.fault c).code = c.code) ∧ (∀ r : RefusalReason, (Reason.refused r).code = r.code) ∧
  [IssueFlag.recorded, .unrecorded].map IssueFlag.code = [0, 1] ∧
  [PassStatus.notReached, .incomplete, .complete].map PassStatus.code = [0, 1, 2] ∧
  [DefectKind.writeFail, .readFail, .mismatch].map DefectKind.code = [1, 2, 3]

/-- Words `k` and `k + 1` of a report carry `n`, low word then high word (R175). -/
abbrev PairAt (report : List Word) (k n : Nat) : Prop :=
  report[k]? = some (BitVec.ofNat 32 n) ∧ report[k + 1]? = some (BitVec.ofNat 32 (n / 4294967296))

/-- Words 26 to 53 of a report carry the four pass records (R168, R175). -/
abbrev PassRecordsAt (report : List Word) (v : Vector PassRecord 4) : Prop :=
  ∀ i : Fin 4,
    report[26 + 7 * i.val]? = some (BitVec.ofNat 32 (i.val + 1 + 256 * v[i.val].kind.code +
      65536 * v[i.val].verify.code + 16777216 * v[i.val].status.code)) ∧
    report[27 + 7 * i.val]? = some (BitVec.ofNat 32 v[i.val].attempts) ∧
    PairAt report (28 + 7 * i.val) v[i.val].written ∧ PairAt report (30 + 7 * i.val) v[i.val].verified ∧
    report[32 + 7 * i.val]? = some (BitVec.ofNat 32 v[i.val].seconds)

/-- Words 54 to 125 of a report carry the 24 defect entry places, those after the last entry 0 (R169, R175). -/
abbrev DefectPlacesAt (report : List Word) (es : List DefectEntry) : Prop :=
  ∀ i : Fin 24,
    PairAt report (54 + 3 * i.val) (match es[i.val]? with | some e => e.first | none => 0) ∧
    report[56 + 3 * i.val]? = some (match es[i.val]? with
      | some e => BitVec.ofNat 32 (e.count + 65536 * e.kind.code + 16777216 * e.pass)
      | none => 0)

/-- Words 13 to 15 of a report carry the first-fault record (R169, R175). -/
abbrev FirstFaultAt (report : List Word) (f : Option FirstFault) : Prop :=
  report[13]? = some (match f with
    | some g => BitVec.ofNat 32 (g.cls.code + 256 * g.pass + 65536 * (if g.lba.isSome = true then 1 else 0))
    | none => 0) ∧
  PairAt report 14 (match f with
    | some g => g.lba.getD 0
    | none => 0)

/-- Words 3 to 126 of a certificate (R168, R169, R175). -/
abbrev CertificateAt (report : List Word) (c : Certificate) : Prop :=
  PairAt report 3 c.unitNumber.toNat ∧ report[5]? = some (BitVec.ofNat 32 c.issueNumber) ∧
  report[6]? = some (BitVec.ofNat 32
    (c.flag.code + 256 * c.size.code + 65536 * c.passCount + 16777216 * c.passesCompleted)) ∧
  PairAt report 7 c.runId.toNat ∧ PairAt report 9 c.first ∧ PairAt report 11 c.last ∧
  FirstFaultAt report c.firstFault ∧
  report[16]? = some (BitVec.ofNat 32 (c.tallies[0] + 65536 * c.tallies[1])) ∧
  report[17]? = some (BitVec.ofNat 32 (c.tallies[2] + 65536 * c.tallies[3])) ∧
  report[18]? = some (BitVec.ofNat 32 (c.tallies[4] + 65536 * c.tallies[5])) ∧
  report[19]? = some (BitVec.ofNat 32 c.tallies[6]) ∧
  report[20]? = some (BitVec.ofNat 32 (c.untracked + 65536 * c.stale)) ∧
  report[21]? = some (BitVec.ofNat 32 c.uncredited) ∧ report[22]? = some (BitVec.ofNat 32 c.unlisted) ∧
  report[23]? = some (BitVec.ofNat 32 c.runSeconds) ∧
  report[24]? = some (BitVec.ofNat 32 (c.allowance + 65536 * c.entries.length)) ∧
  report[25]? = some (BitVec.ofNat 32 c.total) ∧ PassRecordsAt report c.passRecords ∧
  DefectPlacesAt report c.entries ∧ report[126]? = some 0

/-- Words 3 to 126 of a rejection report (R172, R175). -/
abbrev RejectionAt (report : List Word) (e : Rejection) : Prop :=
  PairAt report 3 e.unitNumber.toNat ∧ report[5]? = some 0 ∧
  report[6]? = some (BitVec.ofNat 32 (256 * e.size.code)) ∧ PairAt report 7 e.runId.toNat ∧
  ∀ i : Fin 118, report[9 + i.val]? = some 0

/-! ## Credit -/

/-- The condition is WRITTEN or VERIFIED: the sector counts as written (R88). -/
abbrev CountsAsWritten (c : Option Credit) : Prop := c = some .written ∨ c = some .verified

/-- Some sector of the target range, outside the LBAs `aside`, is neither counted as written nor listed: the pass
cannot be complete by what touches those LBAs alone (R119, R120). -/
abbrev LeavesOpen (aside : Nat → Prop) (x : Lane) : Prop :=
  ∃ p, x.run.plan = some p ∧ ∃ a, p.first ≤ a ∧ a ≤ p.last ∧ ¬ aside a ∧
    ¬ CountsAsWritten (conditionOf x.coverage.extents a) ∧ x.defects.lists a = false

/-- The command addresses LBA `a` (R5). -/
abbrev Addresses (o : Operation) (a : Nat) : Prop := o.start ≤ a ∧ a < o.start + o.count

/-- LBA `a` is in the lane's target range. -/
abbrev InTarget (x : Lane) (a : Nat) : Prop := ∃ p ∈ x.run.plan, p.first ≤ a ∧ a ≤ p.last

/-- The entry says that the sector's content matched (R29). -/
def saysMatch : Entry → Bool
  | .compared .matched => true
  | .marker _ .matched => true
  | .compared .mismatched => false
  | .marker _ .mismatched => false
  | .notCaptured => false
  | .pending => false

/-- The entry says that the sector's content did not match (R29). -/
def saysMismatch : Entry → Bool
  | .compared .mismatched => true
  | .marker _ .mismatched => true
  | .compared .matched => false
  | .marker _ .matched => false
  | .notCaptured => false
  | .pending => false

/-- LBA `a` of a command is in the good part of its completion: before the error LBA, if that lies inside the command, and
anywhere after GOOD (R28). -/
abbrev InGoodPart (status : Status) (errorLba : Option Nat) (o : Operation) (a : Nat) : Prop :=
  match status with
  | .good => True
  | .error => ∃ k, errorLba = some k ∧ Addresses o k ∧ a < k

/-- The part saw LBA `a` of a command accepted with content that matched (R29, R36). -/
abbrev SeenToMatch (status : Status) (errorLba : Option Nat) (r : Record) (a : Nat) : Prop :=
  InGoodPart status errorLba r.operation a ∧
  ∃ x, r.entries[a - r.operation.start]? = some x ∧ saysMatch x = true

/-- The command of a record, a WRITE or a DISCARD, touches the lane's target range: in ISSUING and ISSUED its retirement
voids the certificate (R37). -/
abbrev TouchesRange (r : Record) (x : Lane) : Prop :=
  (r.operation.isWrite = true ∨ ∃ start count, r.operation = .discard start count) ∧
  ∃ a, Addresses r.operation a ∧ InTarget x a

/-- No marker acts at a retirement outside a run: the command ends in ERROR, or retires in ISSUING, or its marker, if it has
one, is no PLAN, and no RELEASE at the anchor of a report (R38, R75, R79). -/
abbrev ActsByNoMarker (status : Status) (r : Record) (x : Lane) : Prop :=
  status = .error ∨ x.run.state = .issuing ∨ ∀ m ∈ r.marker, (m.words.getD 2 0).toNat % 256 ≠ 1 ∧
    ((m.words.getD 2 0).toNat % 256 = 4 →
      x.run.state = .idle ∨ x.run.anchor ≠ some (r.operation.start + m.index))

/-- A command retiring in CLOSING comes too late: a WRITE that touches the range with a stale stamp, a WRITE with an in-range
sector that was not seen to match, or a DISCARD that touches the range (R36). -/
abbrev TooLate (status : Status) (errorLba : Option Nat) (r : Record) (x : Lane) : Prop :=
  match r.operation with
  | .write _ _ =>
    (r.stamp ≠ x.run.current ∧ ∃ a, Addresses r.operation a ∧ InTarget x a) ∨
    ∃ a, Addresses r.operation a ∧ InTarget x a ∧ ¬ SeenToMatch status errorLba r a
  | .discard _ _ => ∃ a, Addresses r.operation a ∧ InTarget x a
  | .read _ _ => False
  | .flush _ => False

/-- The verdict after a retirement in CLOSING: FAILED with reason LATE_WRITE if the command came too late, else as it
was (R36). -/
abbrev LateVerdict (status : Status) (errorLba : Option Nat) (r : Record) (x : Lane) (v : Option Verdict) : Prop :=
  (TooLate status errorLba r x → v = some ⟨.failed, .lateWrite⟩) ∧
  (¬ TooLate status errorLba r x → v = x.run.verdict)

/-- LBA `a` is CACHED in a map. -/
abbrev CachedAt (m : List Extent) (a : Nat) : Prop := ∃ k, conditionOf m a = some (.cached k)

/-- LBA `a` lies outside `start` to `stop` − 1, and every LBA from it to those is CACHED: a run of CACHED sectors that touches
them (R90). -/
abbrev CachedTouching (m : List Extent) (start stop a : Nat) : Prop :=
  (a < start ∧ ∀ b, a ≤ b → b < start → CachedAt m b) ∨ (stop ≤ a ∧ ∀ b, stop ≤ b → b ≤ a → CachedAt m b)

/-- `a` is the lowest LBA with a property. -/
abbrev Lowest (P : Nat → Prop) (a : Nat) : Prop := P a ∧ ∀ b, P b → a ≤ b

/-- The tallies with that of the class at place `i` increased by 1, saturating (R148, R149). -/
abbrev tallied (i : Fin 7) (v : Vector Nat 7) : Vector Nat 7 := v.set i.val (min (v[i.val] + 1) 65535)

/-- The first-fault record after a group with first fault `f`: filled if it was absent (R150). -/
abbrev firstFaultAfter (f : LaneFault) (c : RunControl) : Option FirstFault :=
  match c.firstFault, c.current with
  | some g, _ => some g
  | none, some t => some { cls := f.cls, pass := t.pass, lba := f.lba }
  | none, none => some { cls := f.cls, pass := 0, lba := f.lba }

/-- The tallies and the first-fault record after a fault group: one tally for each fault, and the first fault for an empty
first-fault record (R146, R149, R150). -/
abbrev GroupTallied (g : List LaneFault) (c d : RunControl) : Prop :=
  d.tallies = g.foldl (fun v f => tallied f.cls.place v) c.tallies ∧
  d.firstFault = match g with
    | [] => c.firstFault
    | f :: _ => firstFaultAfter f c

/-- How many sectors of the plan's target range satisfy `P` in a map: the written and verified counts (R88, R106). -/
abbrev sectorsHeld (p : Plan) (m : List Extent) (P : Option Credit → Prop) [DecidablePred P] : Nat :=
  (List.range' p.first (p.last + 1 - p.first)).countP (fun a => decide (P (conditionOf m a)))

/-- The record of a pass open at the close, as the snapshot completes it: with the map's written and verified counts
(R129, R136). -/
abbrev withCounts (p : Plan) (m : List Extent) (r : PassRecord) : PassRecord :=
  { r with
    written := sectorsHeld p m CountsAsWritten
    verified := sectorsHeld p m (fun c => c = some .verified) }

/-- From lane `x` to lane `y`, no pass record has changed but that of the current pass, and that one by `f` if the pass
was open (R129). -/
abbrev OpenRecordTook (f : Plan → PassRecord → PassRecord) (x y : Lane) : Prop :=
  ∀ (p : Plan) (k : Stamp), x.run.plan = some p → x.run.current = some k → ∀ i : Fin 4,
    y.run.passRecords[i.val] =
      if i.val + 1 = k.pass ∧ x.run.passRecords[i.val].status = .incomplete then f p x.run.passRecords[i.val]
      else x.run.passRecords[i.val]

/-- The run of lane `x` has closed in lane `y`: the record of the pass open at the close takes the run clock as its
seconds, and where CLOSING has ended too, the map's counts (R129, R132, R136). -/
abbrev RecordsClosed (x y : Lane) : Prop :=
  OpenRecordTook (fun p r =>
    if y.tracker.records = [] then
      withCounts p y.coverage.extents { r with seconds := y.run.runClock }
    else { r with seconds := y.run.runClock }) x y

/-- CLOSING has ended between lane `x` and lane `y`, with certificate `c`: the record of the pass open at the close takes
the map's counts and keeps its seconds, and the certificate carries the pass records (R129, R136). -/
abbrev RecordsCarried (c : Certificate) (x y : Lane) : Prop :=
  OpenRecordTook (fun p r => withCounts p x.coverage.extents r) x y ∧ c.passRecords = y.run.passRecords

/-- A lane whose run has just closed: in CLOSING while a record is pending, else past it (R132, R135). -/
abbrev ClosedWith (v : Verdict) (x : Lane) : Prop :=
  x.run.verdict = some v ∧ (x.tracker.records ≠ [] → x.run.state = .closing) ∧
  (x.tracker.records = [] → x.run.state = .issuing ∨ x.run.state = .issued)

/-- Lane `l` has left CLOSING with certificate `c`: its pacing code is 1, its drain timer stopped, and its request is with the
store. The pass open at the close has its counts on the certificate. A store that can write begins the write, or the lane
waits behind the one in flight. A DEGRADED or exhausted store has answered at once with 0 UNRECORDED (R49, R135, R136,
R137, R162, R163). -/
abbrev AsksStore (l : LaneId) (c : Certificate) (s t : State) : Prop :=
  certificateOf (t.lane l).run.held = some c ∧ (t.lane l).run.verdict = some c.verdict ∧
  RecordsCarried c (s.lane l) (t.lane l) ∧
  (t.lane l).capture.pacing = 1 ∧ (t.lane l).run.drainTimer = 0 ∧
  (s.store.status = .ready ∧ s.store.storedNumber < 4294967295 →
    (t.lane l).run.state = .issuing ∧
    (s.store.writeInFlight = none →
      t.store.writeInFlight = some ⟨l, s.store.storedNumber + 1, false⟩ ∧ t.store.requests = []) ∧
    (s.store.writeInFlight ≠ none → t.store.writeInFlight = s.store.writeInFlight ∧
      t.store.requests = s.store.requests ++ [l])) ∧
  (s.store.status = .degraded ∨ s.store.storedNumber = 4294967295 →
    (t.lane l).run.state = .issued ∧ (t.lane l).tap.reportReady = true ∧ c.issueNumber = 0 ∧
    c.flag = .unrecorded ∧ c.runSeconds = (t.lane l).run.runClock ∧
    t.store.requests = s.store.requests ∧ t.store.writeInFlight = s.store.writeInFlight) ∧
  t.store.storedNumber = s.store.storedNumber ∧ t.store.status = s.store.status

/-! ## Seconds and expiries (R134, R135, R141, R142) -/

/-- The limit of a lane's stall and drain timers (R134, R142). -/
abbrev limitGiven (c : RunControl) : Nat :=
  match c.plan with
  | some p => [5, 15, 30, 60, 120, 300, 600, 1800].getD p.stall.val 0
  | none => 0

/-- The stall timer counts: the lane is RUNNING and released (R142). -/
abbrev StallCounts (x : Lane) : Prop :=
  x.run.state = .running ∧ x.tap.trigger = false ∧ x.tap.poolReason = false

/-- The stall timer counts, and reaches its limit within `n` seconds. -/
abbrev StallWithin (n : Nat) (x : Lane) : Prop := StallCounts x ∧ limitGiven x.run ≤ x.run.stallTimer + n

/-- The drain timer counts, and reaches its limit within `n` seconds. -/
abbrev DrainWithin (n : Nat) (x : Lane) : Prop :=
  x.run.state = .closing ∧ limitGiven x.run ≤ x.run.drainTimer + n

/-- No timer of a lane expires within `n` seconds. -/
abbrev NoExpiryWithin (n : Nat) (x : Lane) : Prop := ¬ StallWithin n x ∧ ¬ DrainWithin n x

/-- The run clock after `n` seconds: it counts in RUNNING, SUSPENDED, CLOSING and ISSUING, saturating (R141). -/
abbrev runClockAfter (n : Nat) (c : RunControl) : Nat :=
  if c.state = .running ∨ c.state = .suspended ∨ c.state = .closing ∨ c.state = .issuing then
    min (c.runClock + n) 4294967295
  else c.runClock

/-- A lane's run when `n` seconds have been counted and no timer of the lane has expired. -/
abbrev runAfter (n : Nat) (x : Lane) : RunControl :=
  { x.run with
    runClock := runClockAfter n x.run
    stallTimer := if StallCounts x then x.run.stallTimer + n else x.run.stallTimer
    drainTimer := if x.run.state = .closing then x.run.drainTimer + n else x.run.drainTimer }

/-- Lane `y` is lane `x` after `n` seconds without an expiry of its own. An expiry of another lane can free a buffer
that becomes reserved for it, with its pool reason cleared (R47). -/
abbrev SecondsCounted (n : Nat) (x y : Lane) : Prop :=
  y = { x with
    tap := { x.tap with poolReason := y.tap.poolReason }
    capture := { x.capture with reservation := y.capture.reservation }
    run := runAfter n x }

/-- Lane `y` is lane `x` after `n` seconds in the last of which its stall timer expired, under plan `p` with stamp `k`: the
timer restarts from 0, STALL is tallied, and the plan's action for it is applied once (R127, R128, R132, R142, R149,
R153 to R156). -/
abbrev StallTaken (n : Nat) (p : Plan) (k : Stamp) (x y : Lane) : Prop :=
  y.run.tallies = tallied 4 x.run.tallies ∧ y.run.firstFault = firstFaultAfter ⟨.stall, none⟩ x.run ∧
  y.run.stallTimer = 0 ∧ y.run.runClock = runClockAfter n x.run ∧ y.tracker = x.tracker ∧
  y.defects = x.defects ∧ y.capture.queue = x.capture.queue ∧ y.latch = x.latch ∧
  (p.actions[4] = .note →
    y.run.state = .running ∧ y.run.current = some k ∧ y.coverage = x.coverage) ∧
  (p.actions[4] = .suspend →
    y.run.state = .suspended ∧ y.run.current = some k ∧ y.coverage = x.coverage) ∧
  (p.actions[4] = .restart ∧ k.attempt < 255 → y.run.state = .running ∧
    y.run.current = some ⟨k.pass, k.attempt + 1⟩ ∧ y.coverage = { x.coverage with extents := [] } ∧
    ∀ i : Fin 4, y.run.passRecords[i.val] =
      if i.val + 1 = k.pass then { x.run.passRecords[i.val] with attempts := k.attempt + 1 }
      else x.run.passRecords[i.val]) ∧
  (p.actions[4] = .fail ∨ (p.actions[4] = .restart ∧ k.attempt = 255) →
    ClosedWith ⟨.failed, .fault .stall⟩ y ∧ RecordsClosed x y ∧ y.run.current = some k ∧
    y.coverage = x.coverage)

/-- Lane `y` is lane `x`, of a part with unit number `u`, after `n` seconds in the last of which its drain timer expired:
every pending record is abandoned, and CLOSING has ended with certificate `c` (R39, R49, R134, R135, R136, R137). -/
abbrev DrainTaken (n : Nat) (u : BitVec 64) (c : Certificate) (x y : Lane) : Prop :=
  y.tracker.records = [] ∧
  y.tracker.untracked = min (x.tracker.untracked + x.tracker.records.length) 65535 ∧
  y.capture.queue = [] ∧ y.capture.pacing = 1 ∧ y.tap.waiting = none ∧ y.tap.trigger = false ∧
  y.tap.poolReason = false ∧ y.run.drainTimer = 0 ∧ y.run.runClock = runClockAfter n x.run ∧
  (y.run.state = .issuing ∨ y.run.state = .issued) ∧
  y.coverage = x.coverage ∧ y.defects = x.defects ∧ y.run.verdict = x.run.verdict ∧
  y.run.tallies = x.run.tallies ∧ y.run.current = x.run.current ∧ y.latch = x.latch ∧
  certificateOf y.run.held = some c ∧ x.run.verdict = some c.verdict ∧ RecordsCarried c x y ∧ c.unitNumber = u ∧
  c.tallies = x.run.tallies ∧ c.firstFault = x.run.firstFault ∧ c.untracked = y.tracker.untracked ∧
  c.stale = x.run.stale ∧ c.uncredited = x.coverage.uncredited ∧ c.anchor = x.run.anchor ∧
  c.passesCompleted = (x.run.passRecords.toList.filter (fun r => decide (r.status = .complete))).length

/-- Lane `y` is lane `x` after one second: a timer that reaches its limit in it has expired, and otherwise the second has
been counted (R134, R141, R142). -/
abbrev SecondOn (u : BitVec 64) (x y : Lane) : Prop :=
  (StallWithin 1 x → ∀ p k, x.run.plan = some p → x.run.current = some k → StallTaken 1 p k x y) ∧
  (DrainWithin 1 x → ∃ c, DrainTaken 1 u c x y) ∧ (NoExpiryWithin 1 x → SecondsCounted 1 x y)

end Sys2Proof.Safety
end

