-- ==== Sys2Proof/Certificates/Slice0/Obligations.lean ====
section
/-! DEFINITION. The statements about the part, one `Obligations.<Name>` each. "Log <n>" is an entry of
notes/assumptions. `Sound` is the invariant of Sys2Proof/Safety.lean, itself stated here. -/

open Sys2Proof Sys2Proof.Machine Sys2Proof.Safety

/-! ## The machine -/

/-- A step takes the command at the front of the queue and runs it on the state with the queue's rest. The queue of
waiting commands, and that its order is the order of events, is the model's own (log 31). -/
def Obligations.StepRunsFrontCommand : Prop :=
  ∀ (c : Instr) (s : State), step { s with pending := c :: s.pending } = exec c s

/-- Every command answers a next state in every state, and leaves the queue alone. That a command is answered too
where its event cannot occur as the state stands is the model's choice (log 6). The queue of waiting commands is the
model's own (log 31). -/
def Obligations.NoCommandStops : Prop :=
  ∀ (c : Instr) (s : State), ∃ t, exec c s = .next t ∧ t.pending = s.pending

/-- A step on an empty queue is one second (the model's choice, log 4). The run clock counts in RUNNING, SUSPENDED,
CLOSING and ISSUING (R141), the stall timer in RUNNING while released (R142), the drain timer in CLOSING (R134), and
where no timer reaches its limit nothing else changes. A timer that reaches its limit in the second expires in it:
the stall timer with STALL tallied and the plan's action, the drain timer with the end of CLOSING (R135, R142).
Where several lanes' timers do, the lanes expire in their order (the model's choice, log 5), so the step is the
expiry of the lowest. -/
def Obligations.EmptyQueueLetsASecondPass : Prop :=
  ∀ s : State, s.pending = [] →
    ((∀ l : LaneId, NoExpiryWithin 1 (s.lane l)) → ∃ t, step s = .next t ∧ SharedKept s t ∧
      ∀ l : LaneId, t.link l = s.link l ∧ t.lane l = { s.lane l with run := runAfter 1 (s.lane l) }) ∧
    (Sound s → ∃ t, step s = .next t ∧ t.links = s.links ∧ t.powered = s.powered ∧ t.inReset = s.inReset ∧
      t.store.storedNumber = s.store.storedNumber ∧ t.store.status = s.store.status ∧ t.pending = [] ∧
      ∀ l : LaneId, SecondOn s.store.unitNumber (s.lane l) (t.lane l)) ∧
    (∀ l : LaneId, Sound s → (∀ m : LaneId, m < l → NoExpiryWithin 1 (s.lane m)) →
      (StallWithin 1 (s.lane l) → step s = exec (.stallExpiry l) s) ∧
      (DrainWithin 1 (s.lane l) → step s = exec (.drainExpiry l) s))

/-- The state just after power-on meets every law. The model's reset is the part just after power-on (log 1). -/
def Obligations.ResetStateIsSound : Prop := Sound State.reset

/-! ## Starts, supply and the Issue Store -/

/-- POWER_ON brings every block to its starting values and begins the start-up read. The unit number and the stored
issue number survive (R160, R179). What the links have forwarded stands. It does so with supply present too (log 7).
-/
def Obligations.PowerOnStartsEveryBlock : Prop :=
  ∀ s : State, ∃ t, exec .powerOn s = .next t ∧ t.powered = true ∧ t.inReset = false ∧ BlocksStart t ∧
    t.store = { s.store with status := .starting, read := .inFlight, requests := [], writeInFlight := none } ∧
    t.links = s.links ∧ t.pending = s.pending

/-- RACK_RESET brings every block but the Issue Store to its starting values, abandons a start-up read, empties the
request queue and lets a store write in flight go on (R180). That the store keeps its status here is inferred (log
18). -/
def Obligations.RackResetStartsEveryBlock : Prop :=
  ∀ s : State, s.powered = true → ∃ t, exec .rackReset s = .next t ∧ t.powered = true ∧ t.inReset = true ∧
    BlocksStart t ∧ t.store = { s.store with read := .noRead, requests := [] } ∧ t.links = s.links ∧
    t.pending = s.pending

/-- At RACK_RESET_RELEASE the store is STARTING and its read begins, or is put off until the write in flight ends.
Every lane is ABSENT (R180). -/
def Obligations.ReleaseBeginsStartUpRead : Prop :=
  ∀ s : State, Sound s → s.powered = true → s.inReset = true → ∃ t, exec .rackResetRelease s = .next t ∧
    t.powered = true ∧ t.inReset = false ∧ t.store.status = .starting ∧
    (s.store.writeInFlight = none → t.store.read = .inFlight) ∧
    (s.store.writeInFlight ≠ none → t.store.read = .deferred) ∧
    t.store.unitNumber = s.store.unitNumber ∧ t.store.storedNumber = s.store.storedNumber ∧
    t.store.requests = [] ∧ t.store.writeInFlight = s.store.writeInFlight ∧
    (∀ l : LaneId, (t.lane l).tap.sectorSize = none ∧ t.lane l = s.lane l ∧ t.link l = s.link l) ∧
    t.pool = s.pool ∧ t.engine = s.engine ∧ t.pending = s.pending

/-- POWER_LOSS leaves the unit number, and as issue number the stored one or the one being written (R161, remark).
The rest at its starting values is the model's choice (log 8). -/
def Obligations.PowerLossKeepsOneNumber : Prop :=
  ∀ (b : Bool) (s : State), ∃ t, exec (.powerLoss b) s = .next t ∧ t.powered = false ∧ BlocksStart t ∧
    t.store.unitNumber = s.store.unitNumber ∧
    (s.store.writeInFlight = none → t.store.storedNumber = s.store.storedNumber) ∧
    (∀ w, s.store.writeInFlight = some w →
      t.store.storedNumber = if b = true then w.number else s.store.storedNumber) ∧
    t.store.writeInFlight = none ∧ t.store.requests = [] ∧ t.store.read = .noRead ∧ t.links = s.links ∧
    t.pending = s.pending

/-- The start-up read ends: READY on success, DEGRADED on failure, and nothing else changes (R161). -/
def Obligations.StartUpReadEndSetsStatus : Prop :=
  ∀ (success : Bool) (s : State), Sound s → s.store.read = .inFlight →
    ∃ t, exec (.startUpReadEnd success) s = .next t ∧
      t.store = { s.store with
        read := .noRead
        status := if success = true then .ready else .degraded } ∧
      t.lanes = s.lanes ∧ t.links = s.links ∧ t.pool = s.pool ∧ t.engine = s.engine ∧
      t.powered = s.powered ∧ t.inReset = s.inReset ∧ t.pending = s.pending

/-- A store write ends and its lane, not gone, is answered: on success the number is stored and the certificate
carries it with RECORDED, on failure the stored number stays and the certificate carries 0 with UNRECORDED. The lane
enters ISSUED with its report-ready flag set and its run seconds filled (R164, R165, R167). The store then serves
the next request: a write of the next number, or at the greatest number an answer at once to every lane in the queue
(R163). -/
def Obligations.StoreWriteAnswersItsLane : Prop :=
  ∀ (success : Bool) (s : State) (w : StoreWrite) (c : Certificate), Sound s → storeOpen s = true →
    s.store.writeInFlight = some w → w.laneGone = false → (s.lane w.lane).run.held = .pending c →
    ∃ t, exec (.storeWriteEnd success) s = .next t ∧
      t.lane w.lane = { s.lane w.lane with
        tap := { (s.lane w.lane).tap with reportReady := true }
        run := { (s.lane w.lane).run with
          state := .issued
          held := .certificate { c with
            issueNumber := if success = true then w.number else 0
            flag := if success = true then .recorded else .unrecorded
            runSeconds := (s.lane w.lane).run.runClock } } } ∧
      t.store.storedNumber = (if success = true then w.number else s.store.storedNumber) ∧
      t.store.status = s.store.status ∧ t.store.unitNumber = s.store.unitNumber ∧
      (∀ m : LaneId, m ≠ w.lane → m ∉ s.store.requests → t.lane m = s.lane m) ∧
      (t.store.storedNumber < 4294967295 →
        t.store.requests = s.store.requests.tail ∧
        t.store.writeInFlight = s.store.requests.head?.map (fun m =>
          { lane := m, number := t.store.storedNumber + 1, laneGone := false }) ∧
        ∀ m : LaneId, m ≠ w.lane → t.lane m = s.lane m) ∧
      (t.store.storedNumber = 4294967295 →
        t.store.requests = [] ∧ t.store.writeInFlight = none ∧
        ∀ m ∈ s.store.requests, (t.lane m).run.state = .issued ∧ issueNumberOf (t.lane m) = 0 ∧
          (t.lane m).tap.reportReady = true) ∧
      t.links = s.links ∧ t.pool = s.pool ∧ t.engine = s.engine ∧ t.pending = s.pending

/-- A store write whose lane has gone, or that ends after a rack reset began, answers no lane: its number is stored
on success and consumed, and a start-up read that was put off begins (R164, R165, R166, R180). The store then serves
the next request: a write of the next number, or at the greatest number an answer at once with 0 and UNRECORDED to
every lane in the queue (R163). That no lane is answered after a rack reset is inferred (log 18). -/
def Obligations.StoreWriteOfGoneLaneAnswersNone : Prop :=
  ∀ (success : Bool) (s : State) (w : StoreWrite), Sound s → s.store.writeInFlight = some w →
    (w.laneGone = true ∨ storeOpen s = false) →
    ∃ t, exec (.storeWriteEnd success) s = .next t ∧
      t.store.storedNumber = (if success = true then w.number else s.store.storedNumber) ∧
      t.store.read = (if s.store.read = .deferred then .inFlight else s.store.read) ∧
      t.store.status = s.store.status ∧ t.store.unitNumber = s.store.unitNumber ∧
      (t.store.storedNumber < 4294967295 ∨ s.store.requests = [] →
        t.store.requests = s.store.requests.tail ∧
        t.store.writeInFlight = s.store.requests.head?.map (fun m =>
          { lane := m, number := t.store.storedNumber + 1, laneGone := false }) ∧
        ∀ l : LaneId, t.lane l = s.lane l) ∧
      (t.store.storedNumber = 4294967295 →
        t.store.requests = [] ∧ t.store.writeInFlight = none ∧
        (∀ l : LaneId, l ∉ s.store.requests → t.lane l = s.lane l) ∧
        ∀ l ∈ s.store.requests, ∀ c, (s.lane l).run.held = .pending c →
          t.lane l = { s.lane l with
            tap := { (s.lane l).tap with reportReady := true }
            run := { (s.lane l).run with
              state := .issued
              held := .certificate { c with
                issueNumber := 0
                flag := .unrecorded
                runSeconds := (s.lane l).run.runClock } } }) ∧
      t.links = s.links ∧ t.pool = s.pool ∧ t.engine = s.engine ∧ t.powered = s.powered ∧
      t.inReset = s.inReset ∧ t.pending = s.pending

/-! ## Presence and link events -/

/-- ATTACH on an ABSENT lane: PRESENT with its sector size, IDLE, the lamp latch cleared and the lamp READY. A drive
of another format is not attached (R2, R123, R177). -/
def Obligations.AttachEntersIdle : Prop :=
  ∀ (l : LaneId) (s : State), s.listening = true → (s.lane l).tap.sectorSize = none →
    (∀ (format : Nat) (size : SectorSize),
      (format = 512 ∧ size = .bytes512) ∨ (format = 4096 ∧ size = .bytes4096) →
      ∃ t, exec (.attach l format) s = .next t ∧
        t.lane l = { s.lane l with
          tap := { (s.lane l).tap with sectorSize := some size }
          run := { (s.lane l).run with state := .idle }
          latch := false } ∧
        t.lamp l = .ready ∧ t.link l = s.link l ∧ OthersKept l s t ∧ SharedKept s t) ∧
    ∀ format : Nat, format ≠ 512 → format ≠ 4096 → exec (.attach l format) s = .next s

/-- DETACH empties the lane: its tap, records, jobs, credit, defects and run. The untracked counter rises by the
records abandoned, the latch is set in RUNNING, SUSPENDED, CLOSING and ISSUING, the request leaves the store's queue
or its write is marked, and the other lanes keep all but their places in the pool (R3, R41, R60, R124, R166, R177).
Whether the event cuts a sector off is the model's operand (log 10). -/
def Obligations.DetachEmptiesLane : Prop :=
  ∀ (l : LaneId) (cut : Bool) (s : State), Sound s → s.takesEvents l = true →
    ∃ t, exec (.detach l cut) s = .next t ∧ LaneEmptied (t.lane l) ∧ RunStarts (t.lane l).run ∧
      (t.lane l).tracker.untracked =
        min ((s.lane l).tracker.untracked + (s.lane l).tracker.records.length) 65535 ∧
      (t.lane l).latch = ((s.lane l).latch || decide ((s.lane l).run.state = .running) ||
        decide ((s.lane l).run.state = .suspended) || decide ((s.lane l).run.state = .closing) ||
        decide ((s.lane l).run.state = .issuing)) ∧
      t.lamp l = (if (t.lane l).latch = true then .fail else .off) ∧
      l ∉ t.pool.waitingList ∧ (∀ f ∈ t.engine.inFlight, f.lane = l → f.discard = true) ∧
      t.store = { s.store with
        requests := s.store.requests.filter (fun m => decide (m ≠ l))
        writeInFlight := s.store.writeInFlight.map (fun w =>
          if w.lane = l then { w with laneGone := true } else w) } ∧
      t.link l = s.link l ∧ OthersKeptButCapture l s t ∧ t.powered = s.powered ∧ t.inReset = s.inReset ∧
      t.pending = s.pending

/-- A drive that identifies with another format than the recorded one makes a DETACH and then, if the format is
supported, an ATTACH. One that identifies with the recorded format makes no event (R2). -/
def Obligations.NewFormatDetachesThenAttaches : Prop :=
  ∀ (l : LaneId) (format : Nat) (cut : Bool) (s : State) (size : SectorSize), s.takesEvents l = true →
    (s.lane l).tap.sectorSize = some size →
    ((¬ (format = 512 ∧ size = .bytes512) ∧ ¬ (format = 4096 ∧ size = .bytes4096) →
      ∃ t u, exec (.detach l cut) s = .next t ∧ exec (.attach l format) t = .next u ∧
        exec (.identifyNewFormat l format cut) s = .next u) ∧
    ((format = 512 ∧ size = .bytes512) ∨ (format = 4096 ∧ size = .bytes4096) →
      exec (.identifyNewFormat l format cut) s = .next s))

/-- LINK_RESET abandons the lane's records, discards its jobs, releases it, empties its read address table, removes
its CACHED extents in every run state and raises LINK_RESET, whose action is applied in RUNNING and SUSPENDED and
which is tallied only in the other states. In CLOSING it ends the drain (R4, R40, R60, R104, R125, R132, R136,
R147). That the certificate of a drain so ended counts this LINK_RESET is the model's choice (log 32), and whether
the event cuts a sector off its operand (log 10). -/
def Obligations.LinkResetAbandonsAndTallies : Prop :=
  ∀ (l : LaneId) (cut : Bool) (s : State), Sound s → s.takesEvents l = true →
    ∃ t, exec (.linkReset l cut) s = .next t ∧
      (t.lane l).tracker = { (s.lane l).tracker with
        records := []
        untracked := min ((s.lane l).tracker.untracked + (s.lane l).tracker.records.length) 65535 } ∧
      (∀ tag : Tag, (t.lane l).tap.readTable[tag.val] = none) ∧ (t.lane l).tap.waiting = none ∧
      (t.lane l).tap.trigger = false ∧ (t.lane l).tap.poolReason = false ∧
      (t.lane l).tap.sectorSize = (s.lane l).tap.sectorSize ∧ (t.lane l).capture.queue = [] ∧
      (t.lane l).capture.reservation = none ∧ l ∉ t.pool.waitingList ∧
      (∀ f ∈ t.engine.inFlight, f.lane = l → f.discard = true) ∧
      (t.lane l).run.tallies = tallied 6 (s.lane l).run.tallies ∧ (t.lane l).defects = (s.lane l).defects ∧
      (t.lane l).coverage.uncredited = (s.lane l).coverage.uncredited ∧ (t.lane l).latch = (s.lane l).latch ∧
      ((s.lane l).run.state = .running ∨ (s.lane l).run.state = .suspended →
        ∀ (p : Plan) (k : Stamp), (s.lane l).run.plan = some p → (s.lane l).run.current = some k →
          (t.lane l).run.firstFault = firstFaultAfter ⟨.linkReset, none⟩ (s.lane l).run ∧
          (p.actions[6] = .note → (t.lane l).run.state = (s.lane l).run.state ∧
            (t.lane l).run.current = some k ∧ (t.lane l).run.stallTimer = (s.lane l).run.stallTimer ∧
            (t.lane l).coverage.extents =
              (s.lane l).coverage.extents.filter (fun x => (epochOf x).isNone)) ∧
          (p.actions[6] = .suspend → (t.lane l).run.state = .suspended ∧ (t.lane l).run.current = some k ∧
            (t.lane l).coverage.extents =
              (s.lane l).coverage.extents.filter (fun x => (epochOf x).isNone)) ∧
          (p.actions[6] = .restart ∧ k.attempt < 255 →
            (t.lane l).run.state = (s.lane l).run.state ∧
            (t.lane l).run.current = some ⟨k.pass, k.attempt + 1⟩ ∧ (t.lane l).run.stallTimer = 0 ∧
            (t.lane l).coverage.extents = []) ∧
          (p.actions[6] = .fail ∨ (p.actions[6] = .restart ∧ k.attempt = 255) →
            ClosedWith ⟨.failed, .fault .linkReset⟩ (t.lane l) ∧ RecordsClosed (s.lane l) (t.lane l) ∧
            (t.lane l).run.current = some k ∧ (t.lane l).run.stallTimer = 0 ∧
            (t.lane l).run.runClock = (s.lane l).run.runClock ∧
            (t.lane l).coverage.extents =
              (s.lane l).coverage.extents.filter (fun x => (epochOf x).isNone))) ∧
      ((s.lane l).run.state = .closing →
        ((t.lane l).run.state = .issuing ∨ (t.lane l).run.state = .issued) ∧
        (t.lane l).run.verdict = (s.lane l).run.verdict ∧
        (t.lane l).run.firstFault = (s.lane l).run.firstFault ∧
        (t.lane l).run.runClock = (s.lane l).run.runClock ∧
        (t.lane l).coverage.extents = (s.lane l).coverage.extents.filter (fun x => (epochOf x).isNone) ∧
        ∃ c, certificateOf (t.lane l).run.held = some c ∧ c.tallies = (t.lane l).run.tallies ∧
          RecordsCarried c (s.lane l) (t.lane l)) ∧
      ((s.lane l).run.state ≠ .running → (s.lane l).run.state ≠ .suspended →
        (s.lane l).run.state ≠ .closing →
        (t.lane l).run = { (s.lane l).run with tallies := tallied 6 (s.lane l).run.tallies } ∧
        (t.lane l).tap.reportReady = (s.lane l).tap.reportReady ∧
        (t.lane l).coverage.extents = (s.lane l).coverage.extents.filter (fun x => (epochOf x).isNone)) ∧
      t.link l = s.link l ∧ OthersKeptButCapture l s t ∧ t.pending = s.pending

/-- While supply is present, a lane that takes no events only forwards: each frame and sector passes unchanged, and
a link reset or a loss of presence is no event (R1, R8, R180). What a link has forwarded is the model's own record
(log 21). -/
def Obligations.AbsentLaneOnlyForwards : Prop :=
  ∀ (l : LaneId) (s : State), s.powered = true → s.takesEvents l = false →
    ∀ (tag : Tag) (start count index : Nat) (d : Direction) (bytes : List Byte) (status : Status)
      (errorLba : Option Nat) (cut : Bool),
      (∀ q ∈ [(Instr.commandRead l tag start count, Direction.towardDrive, Traffic.readCommand tag start count),
          (.commandWrite l tag start count, .towardDrive, .writeCommand tag start count),
          (.commandFlush l tag, .towardDrive, .flushCommand tag),
          (.commandDiscard l tag start count, .towardDrive, .discardCommand tag start count),
          (.commandOther l tag, .towardDrive, .otherCommand tag),
          (.data l tag d index bytes, d, .sector tag index bytes),
          (.complete l tag status errorLba, .towardStation, .completion tag status errorLba)],
        ∃ t, exec q.1 s = .next t ∧ Forwarded q.2.1 q.2.2 (s.link l) (t.link l) ∧ t.lane l = s.lane l ∧
          OthersKept l s t ∧ SharedKept s t) ∧
      exec (.linkReset l cut) s = .next s ∧ exec (.detach l cut) s = .next s

/-! ## Commands -/

/-- A READ, WRITE or DISCARD whose tag is not pending, on a table with room, opens a record with the current stamp
or none, fills or empties its tag's slot, and is forwarded. Nothing else changes (R8, R13, R19). -/
def Obligations.TrackedCommandOpensRecord : Prop :=
  ∀ (l : LaneId) (tag : Tag) (start count : Nat) (s : State), s.takesEvents l = true →
    ¬ tagPending tag (s.lane l) → (s.lane l).tracker.records.length < 16 →
    ∀ q ∈ [(Instr.commandRead l tag start count, Operation.read start count,
          some (ReadSlot.mk start count), Traffic.readCommand tag start count),
        (.commandWrite l tag start count, .write start count, none, .writeCommand tag start count),
        (.commandDiscard l tag start count, .discard start count, none, .discardCommand tag start count)],
      ∃ t, exec q.1 s = .next t ∧
        t.lane l = { s.lane l with
          tap := withSlot tag q.2.2.1 (s.lane l).tap
          tracker := { (s.lane l).tracker with
            records := (s.lane l).tracker.records ++
              [openedRecord tag q.2.1 (stampTaken (s.lane l).run)] } } ∧
        Forwarded .towardDrive q.2.2.2 (s.link l) (t.link l) ∧ OthersKept l s t ∧ SharedKept s t

/-- A FLUSH that makes a record takes the flush number E, and E then increases by 1, saturating (R20). -/
def Obligations.FlushTakesFlushNumber : Prop :=
  ∀ (l : LaneId) (tag : Tag) (s : State), Sound s → s.takesEvents l = true → ¬ tagPending tag (s.lane l) →
    (s.lane l).tracker.records.length < 16 →
    ∃ t, exec (.commandFlush l tag) s = .next t ∧
      t.lane l = { s.lane l with
        tap := withSlot tag none (s.lane l).tap
        tracker := { (s.lane l).tracker with
          records := (s.lane l).tracker.records ++
            [openedRecord tag (.flush (s.lane l).tracker.epoch) (stampTaken (s.lane l).run)]
          epoch := if (s.lane l).tracker.epoch = 4294967295 then 4294967295
            else (s.lane l).tracker.epoch + 1 } } ∧
      Forwarded .towardDrive (.flushCommand tag) (s.link l) (t.link l) ∧ OthersKept l s t ∧ SharedKept s t

/-- A command of a tracked kind whose tag is not pending, on a full table, makes no record and is counted untracked,
saturating (R21). E is unchanged by a FLUSH that passes untracked (R20). -/
def Obligations.FullTableCountsUntracked : Prop :=
  ∀ (l : LaneId) (tag : Tag) (start count : Nat) (s : State), s.takesEvents l = true →
    ¬ tagPending tag (s.lane l) → 16 ≤ (s.lane l).tracker.records.length →
    ∀ q ∈ [(Instr.commandRead l tag start count, some (ReadSlot.mk start count),
          Traffic.readCommand tag start count),
        (.commandWrite l tag start count, none, .writeCommand tag start count),
        (.commandFlush l tag, none, .flushCommand tag),
        (.commandDiscard l tag start count, none, .discardCommand tag start count)],
      ∃ t, exec q.1 s = .next t ∧
        t.lane l = { s.lane l with
          tap := withSlot tag q.2.1 (s.lane l).tap
          tracker := { (s.lane l).tracker with
            untracked := min ((s.lane l).tracker.untracked + 1) 65535 } } ∧
        Forwarded .towardDrive q.2.2 (s.link l) (t.link l) ∧ OthersKept l s t ∧ SharedKept s t

/-- A command whose tag is pending abandons the record of that tag: its jobs and its waiting sector go, its job in
flight is marked, the untracked counter rises by 1, and no credit, defect or run changes. The new command then makes
its record, but for the kind OTHER, and a FLUSH raises E by 1, saturating (R20, R22, R39, R59). Where a command of
kind OTHER reuses the tag of the last record of a lane in CLOSING, CLOSING ends: the certificate's snapshot is
taken, with the map's counts in the record of the pass open at the close, and the lane's request goes to the store
(R135, R136, R137). -/
def Obligations.ReusedTagAbandonsRecord : Prop :=
  ∀ (l : LaneId) (tag : Tag) (start count : Nat) (s : State), Sound s → s.takesEvents l = true →
    tagPending tag (s.lane l) →
    (∀ q ∈ [(Instr.commandRead l tag start count, some (ReadSlot.mk start count),
          some (Operation.read start count), Traffic.readCommand tag start count),
        (.commandWrite l tag start count, none, some (.write start count), .writeCommand tag start count),
        (.commandFlush l tag, none, some (.flush (s.lane l).tracker.epoch), .flushCommand tag),
        (.commandDiscard l tag start count, none, some (.discard start count),
          .discardCommand tag start count),
        (.commandOther l tag, none, none, .otherCommand tag)],
      (q.2.2.1 = none → (s.lane l).run.state = .closing →
        ∃ r ∈ (s.lane l).tracker.records, r.tag ≠ tag) →
      ∃ t, exec q.1 s = .next t ∧
        (t.lane l).tracker.records = withoutTag tag (s.lane l).tracker.records ++
          q.2.2.1.toList.map (fun o => openedRecord tag o (stampTaken (s.lane l).run)) ∧
        (t.lane l).tracker.untracked = min ((s.lane l).tracker.untracked + 1) 65535 ∧
        (t.lane l).tracker.epoch = (match q.2.2.1 with
          | some (.flush _) => min ((s.lane l).tracker.epoch + 1) 4294967295
          | _ => (s.lane l).tracker.epoch) ∧
        (t.lane l).coverage = (s.lane l).coverage ∧ (t.lane l).defects = (s.lane l).defects ∧
        (t.lane l).run = (s.lane l).run ∧ (t.lane l).latch = (s.lane l).latch ∧
        (t.lane l).tap.readTable = (s.lane l).tap.readTable.set tag.val q.2.1 ∧
        (t.lane l).tap.sectorSize = (s.lane l).tap.sectorSize ∧
        (t.lane l).tap.reportReady = (s.lane l).tap.reportReady ∧
        (t.lane l).capture.queue = (s.lane l).capture.queue.filter (fun j => decide (j.tag ≠ tag)) ∧
        (t.lane l).tap.waiting = (s.lane l).tap.waiting.filter (fun w => decide (w.tag ≠ tag)) ∧
        t.engine = { s.engine with
          inFlight := s.engine.inFlight.map (fun f =>
            if f.lane = l ∧ f.job.tag = tag then { f with discard := true } else f) } ∧
        Forwarded .towardDrive q.2.2.2 (s.link l) (t.link l) ∧ OthersKeptButCapture l s t ∧
        SharedKeptButCapture s t) ∧
    ((s.lane l).run.state = .closing → (∀ r ∈ (s.lane l).tracker.records, r.tag = tag) →
      ∃ t c, exec (.commandOther l tag) s = .next t ∧ (t.lane l).tracker.records = [] ∧
        (t.lane l).tracker.untracked = min ((s.lane l).tracker.untracked + 1) 65535 ∧
        AsksStore l c s t ∧ (s.lane l).run.verdict = some c.verdict ∧
        c.untracked = (t.lane l).tracker.untracked ∧ c.tallies = (s.lane l).run.tallies ∧
        (t.lane l).run.tallies = (s.lane l).run.tallies ∧ (t.lane l).coverage = (s.lane l).coverage ∧
        (t.lane l).defects = (s.lane l).defects ∧ (t.lane l).latch = (s.lane l).latch ∧
        (t.lane l).capture.queue = [] ∧ (t.lane l).tap.waiting = none ∧
        (∀ f ∈ t.engine.inFlight, f.lane = l → f.discard = true) ∧
        Forwarded .towardDrive (.otherCommand tag) (s.link l) (t.link l) ∧ OthersKeptButCapture l s t ∧
        t.pending = s.pending)

/-- A command of kind OTHER whose tag is not pending makes no record and counts nothing: it empties its tag's slot
and is forwarded (R13, R21). -/
def Obligations.OtherCommandMakesNoRecord : Prop :=
  ∀ (l : LaneId) (tag : Tag) (s : State), Sound s → s.takesEvents l = true → ¬ tagPending tag (s.lane l) →
    ∃ t, exec (.commandOther l tag) s = .next t ∧
      t.lane l = { s.lane l with tap := withSlot tag none (s.lane l).tap } ∧
      Forwarded .towardDrive (.otherCommand tag) (s.link l) (t.link l) ∧ OthersKept l s t ∧ SharedKept s t

/-! ## Data sectors -/

/-- A capturable sector that finds a FREE buffer passes whole, its entry becomes PENDING with one more job
outstanding, and its job joins the tail of the queue with the hold rule applied, or is granted at once when the
engine is free (R23, R45, R50, R53, R54). The job's words are formed from the link's bytes, byte 4k the least
significant of word k (R62). A sector is taken whole (log 9), and which FREE buffer is lent is open here (log 17).
-/
def Obligations.CapturedSectorJoinsQueue : Prop :=
  ∀ (l : LaneId) (tag : Tag) (d : Direction) (index : Nat) (bytes : List Byte) (r : Record) (s : State),
    Sound s → s.takesEvents l = true → (s.lane l).tap.trigger = false → (s.lane l).tap.poolReason = false →
    (s.lane l).tap.waiting = none → r ∈ (s.lane l).tracker.records → r.tag = tag →
    Capturable r (s.lane l).run.state d index → s.pool.freeBuffers ≠ [] →
    ∃ t b, exec (.data l tag d index bytes) s = .next t ∧
      b ∈ s.pool.freeBuffers ∧ b ∉ t.pool.freeBuffers ∧
      t.pool.freeBuffers.length + 1 = s.pool.freeBuffers.length ∧
      t.pool.waitingList = s.pool.waitingList ∧
      (t.lane l).tracker = { (s.lane l).tracker with
        records := mapTag tag (fun q =>
          { q with entries := q.entries.set index .pending, outstanding := q.outstanding + 1 })
          (s.lane l).tracker.records } ∧
      (t.lane l).coverage = (s.lane l).coverage ∧ (t.lane l).defects = (s.lane l).defects ∧
      (t.lane l).run = (s.lane l).run ∧ (t.lane l).latch = (s.lane l).latch ∧
      (t.lane l).tap.waiting = none ∧ (t.lane l).tap.poolReason = false ∧
      (t.lane l).tap.readTable = (s.lane l).tap.readTable ∧
      (t.lane l).tap.reportReady = (s.lane l).tap.reportReady ∧
      (t.lane l).tap.sectorSize = (s.lane l).tap.sectorSize ∧ (t.lane l).tap.crossing = some b ∧
      (s.engine.inFlight.isSome = true → t.engine = s.engine ∧
        (t.lane l).capture.queue = (s.lane l).capture.queue ++ [⟨tag, index, d, b, wordsOnLink bytes⟩] ∧
        ((t.lane l).tap.trigger = true ↔
          holdLevel (s.lane l).capture.pacing ≤ (s.lane l).capture.queue.length + 1)) ∧
      (s.engine.inFlight = none → (t.lane l).capture.queue = [] ∧ (t.lane l).tap.trigger = false ∧
        t.engine = {
          lastGranted := l
          inFlight := some {
            lane := l
            job := ⟨tag, index, d, b, wordsOnLink bytes⟩
            context := some (contextOf r ⟨tag, index, d, b, wordsOnLink bytes⟩ (s.lane l))
            discard := false } }) ∧
      Forwarded d (.sector tag index bytes) (s.link l) (t.link l) ∧ OthersKept l s t ∧
      SharedKeptButCapture s t

/-- A capturable sector that finds no FREE buffer does not start: its entry becomes PENDING, it is the lane's
waiting sector, the pool reason is set and the lane joins the tail of the waiting list. Its queue does not change
(R11, R23, R46). -/
def Obligations.StoppedSectorWaits : Prop :=
  ∀ (l : LaneId) (tag : Tag) (d : Direction) (index : Nat) (bytes : List Byte) (r : Record) (s : State),
    Sound s → s.takesEvents l = true → (s.lane l).tap.trigger = false → (s.lane l).tap.poolReason = false →
    (s.lane l).tap.waiting = none → r ∈ (s.lane l).tracker.records → r.tag = tag →
    Capturable r (s.lane l).run.state d index → s.pool.freeBuffers = [] →
    ∃ t, exec (.data l tag d index bytes) s = .next t ∧
      t.lane l = { s.lane l with
        tap := { (s.lane l).tap with
          waiting := some ⟨tag, d, index⟩
          poolReason := true }
        tracker := { (s.lane l).tracker with
          records := mapTag tag (fun q =>
            { q with entries := q.entries.set index .pending, outstanding := q.outstanding + 1 })
            (s.lane l).tracker.records } } ∧
      t.pool = { s.pool with waitingList := s.pool.waitingList ++ [l] } ∧ t.engine = s.engine ∧
      t.link l = s.link l ∧ OthersKept l s t ∧ SharedKeptButCapture s t

/-- A sector that is not capturable, and for which no report stands in, passes unchanged and leaves no trace but
that the sector now crossing the tap is not a captured one (R8, R13, R14, R23). That last trace is the model's own
(log 10). -/
def Obligations.UncapturedSectorPasses : Prop :=
  ∀ (l : LaneId) (tag : Tag) (d : Direction) (index : Nat) (bytes : List Byte) (s : State),
    s.takesEvents l = true → (s.lane l).tap.trigger = false → (s.lane l).tap.poolReason = false →
    (s.lane l).tap.waiting = none →
    (∀ r ∈ (s.lane l).tracker.records, r.tag = tag → ¬ Capturable r (s.lane l).run.state d index) →
    (d = .towardStation → (s.lane l).run.state = .issued ∨ (s.lane l).run.state = .rejected →
      ∀ slot ∈ (s.lane l).tap.readTable[tag.val], index < slot.count →
        (s.lane l).run.anchor ≠ some (slot.start + index)) →
    ∃ t, exec (.data l tag d index bytes) s = .next t ∧
      t.lane l = { s.lane l with tap := { (s.lane l).tap with crossing := none } } ∧
      Forwarded d (.sector tag index bytes) (s.link l) (t.link l) ∧ OthersKept l s t ∧ SharedKept s t

/-- A held lane takes no DATA event: the announced sector stays with its sender (R6, R9). -/
def Obligations.HeldLaneTakesNoData : Prop :=
  ∀ (l : LaneId) (tag : Tag) (d : Direction) (index : Nat) (bytes : List Byte) (s : State),
    s.takesEvents l = true → (s.lane l).tap.trigger = true ∨ (s.lane l).tap.poolReason = true →
    exec (.data l tag d index bytes) s = .next s

/-- A read of the anchor in ISSUED or REJECTED carries the report, its words on the link least significant byte
first (R14, R62): W words that sum to 0 mod 2^32 and begin with the signature and kind REPORT, zeros after the first
128. Words 3 to 126 are the fields of the held certificate or of the rejection report, each at its place and with
its code (R168, R169, R170, R172, R175). The report-ready flag is cleared (R17). -/
def Obligations.AnchorReadCarriesReport : Prop :=
  CodesAsGiven ∧
  ∀ (l : LaneId) (tag : Tag) (index : Nat) (bytes : List Byte) (slot : ReadSlot) (s : State), Sound s →
    s.takesEvents l = true → (s.lane l).tap.trigger = false → (s.lane l).tap.poolReason = false →
    (s.lane l).tap.waiting = none →
    (s.lane l).run.state = .issued ∨ (s.lane l).run.state = .rejected →
    (s.lane l).tap.readTable[tag.val] = some slot → index < slot.count →
    (s.lane l).run.anchor = some (slot.start + index) →
    ∃ t sent, exec (.data l tag .towardStation index bytes) s = .next t ∧
      Forwarded .towardStation (.sector tag index sent) (s.link l) (t.link l) ∧
      ((s.lane l).tap.sectorSize = some .bytes512 → sent.length = 512) ∧
      ((s.lane l).tap.sectorSize = some .bytes4096 → sent.length = 4096 ∧
        ∀ i : Fin 896, (wordsOnLink sent)[128 + i.val]? = some 0) ∧
      (wordsOnLink sent).foldr (· + ·) 0 = 0 ∧
      (wordsOnLink sent)[0]? = some 0x6A4E31D7#32 ∧ (wordsOnLink sent)[1]? = some 0x9C15E2B8#32 ∧
      (∀ c, (s.lane l).run.held = .certificate c →
        (s.lane l).run.verdict = some c.verdict ∧
        (wordsOnLink sent)[2]? = some (BitVec.ofNat 32
          (8 + 256 + 65536 * c.verdict.outcome.code + 16777216 * c.verdict.reason.code)) ∧
        CertificateAt (wordsOnLink sent) c) ∧
      (∀ e, (s.lane l).run.held = .rejection e →
        (wordsOnLink sent)[2]? = some (BitVec.ofNat 32 (8 + 256 + 65536 * 5 + 16777216 * e.reason.code)) ∧
        RejectionAt (wordsOnLink sent) e) ∧
      t.lane l = { s.lane l with
        tap := { (s.lane l).tap with reportReady := false, crossing := none } } ∧
      OthersKept l s t ∧ SharedKept s t

/-- The waiting sector of a lane with a reservation starts whether or not the trigger reason is set: it passes
whole, and its job joins the queue with the reserved buffer, or is granted at once when the engine is free (R11,
R48, R50, R53). Its words are formed from the bytes that come with the start (R62, log 9). -/
def Obligations.WaitingSectorStarts : Prop :=
  ∀ (l : LaneId) (bytes : List Byte) (w : Waiting) (b : BufferId) (s : State), Sound s →
    s.takesEvents l = true → (s.lane l).tap.waiting = some w → (s.lane l).capture.reservation = some b →
    ∃ t, exec (.waitingSectorStart l bytes) s = .next t ∧
      (t.lane l).tap.waiting = none ∧ (t.lane l).capture.reservation = none ∧ t.pool = s.pool ∧
      (t.lane l).tracker = (s.lane l).tracker ∧ (t.lane l).coverage = (s.lane l).coverage ∧
      (t.lane l).defects = (s.lane l).defects ∧ (t.lane l).run = (s.lane l).run ∧
      (t.lane l).latch = (s.lane l).latch ∧ (t.lane l).tap.poolReason = false ∧
      (t.lane l).tap.readTable = (s.lane l).tap.readTable ∧
      (t.lane l).tap.reportReady = (s.lane l).tap.reportReady ∧
      (t.lane l).tap.sectorSize = (s.lane l).tap.sectorSize ∧ (t.lane l).tap.crossing = some b ∧
      (s.engine.inFlight.isSome = true → t.engine = s.engine ∧
        (t.lane l).capture.queue =
          (s.lane l).capture.queue ++ [⟨w.tag, w.index, w.direction, b, wordsOnLink bytes⟩] ∧
        ((t.lane l).tap.trigger = true ↔ (s.lane l).tap.trigger = true ∨
          holdLevel (s.lane l).capture.pacing ≤ (s.lane l).capture.queue.length + 1)) ∧
      (s.engine.inFlight = none → (t.lane l).capture.queue = [] ∧ t.engine.lastGranted = l ∧
        ∃ f, t.engine.inFlight = some f ∧ f.lane = l ∧ f.discard = false ∧
          f.job = ⟨w.tag, w.index, w.direction, b, wordsOnLink bytes⟩) ∧
      Forwarded w.direction (.sector w.tag w.index bytes) (s.link l) (t.link l) ∧ OthersKept l s t ∧
      SharedKeptButCapture s t

/-! ## Completions, results and grants -/

/-- A COMPLETE for a record with results outstanding enters the completion and the record waits. For a tag that is
not pending, or whose record has its completion, the tracker ignores it. Either way the tag's slot is emptied and
the frame is forwarded as the drive sent it (R7, R8, R13, R25, R26). -/
def Obligations.CompletionAwaitsResults : Prop :=
  ∀ (l : LaneId) (tag : Tag) (status : Status) (errorLba : Option Nat) (s : State), Sound s →
    s.takesEvents l = true →
    (∀ r ∈ (s.lane l).tracker.records, r.tag = tag → r.completion = none → 0 < r.outstanding →
      (∀ w ∈ (s.lane l).tap.waiting, w.tag ≠ tag) →
      ∃ t, exec (.complete l tag status errorLba) s = .next t ∧
        t.lane l = { s.lane l with
          tap := withSlot tag none (s.lane l).tap
          tracker := { (s.lane l).tracker with
            records := mapTag tag (fun q => { q with
              completion := some ⟨status, match status with | .good => none | .error => errorLba⟩ })
              (s.lane l).tracker.records } } ∧
        Forwarded .towardStation (.completion tag status errorLba) (s.link l) (t.link l) ∧
        OthersKept l s t ∧ SharedKept s t) ∧
    ((∀ r ∈ (s.lane l).tracker.records, r.tag = tag → r.completion ≠ none) →
      ∃ t, exec (.complete l tag status errorLba) s = .next t ∧
        t.lane l = { s.lane l with tap := withSlot tag none (s.lane l).tap } ∧
        Forwarded .towardStation (.completion tag status errorLba) (s.link l) (t.link l) ∧
        OthersKept l s t ∧ SharedKept s t)

/-- A COMPLETE whose record owns the lane's waiting sector drops that sector: its entry returns to NOT-CAPTURED, one
job fewer is outstanding, the lane leaves the waiting list with its pool reason cleared, or its reserved buffer is
freed anew (R25, R47, R48). Where that was its one outstanding job, the record retires at this event (R25, R26). So
a WRITE that retires GOOD in RUNNING with a current stamp, under flush flag 0, with every other sector MATCH and on
a map with room: the dropped sector becomes untouched and is counted uncredited, and the others become WRITTEN (R29,
R93, R98). -/
def Obligations.CompletionDropsWaitingSector : Prop :=
  ∀ (l : LaneId) (tag : Tag) (status : Status) (errorLba : Option Nat) (w : Waiting) (r : Record) (s : State),
    Sound s → s.takesEvents l = true → (s.lane l).tap.waiting = some w → w.tag = tag →
    r ∈ (s.lane l).tracker.records → r.tag = tag →
    (1 < r.outstanding → ∃ t, exec (.complete l tag status errorLba) s = .next t ∧
      (t.lane l).tap = { withSlot tag none (s.lane l).tap with waiting := none, poolReason := false } ∧
      (t.lane l).capture = { (s.lane l).capture with reservation := none } ∧ l ∉ t.pool.waitingList ∧
      (t.lane l).tracker = { (s.lane l).tracker with
        records := mapTag tag (fun q => { q with
          entries := q.entries.set w.index .notCaptured
          outstanding := q.outstanding - 1
          completion := some ⟨status, match status with | .good => none | .error => errorLba⟩ })
          (s.lane l).tracker.records } ∧
      (t.lane l).coverage = (s.lane l).coverage ∧ (t.lane l).defects = (s.lane l).defects ∧
      (t.lane l).run = (s.lane l).run ∧ (t.lane l).latch = (s.lane l).latch ∧
      (∀ b, (s.lane l).capture.reservation = some b → BufferFreed b s t) ∧
      ((s.lane l).capture.reservation = none → t.pool.freeBuffers = s.pool.freeBuffers) ∧
      t.engine = s.engine ∧
      Forwarded .towardStation (.completion tag status errorLba) (s.link l) (t.link l) ∧
      OthersKeptButCapture l s t ∧ SharedKeptButCapture s t) ∧
    (r.outstanding = 1 → ∃ t, exec (.complete l tag status errorLba) s = .next t ∧
      (t.lane l).tracker.records = withoutTag tag (s.lane l).tracker.records ∧
      (t.lane l).tracker.epoch = (s.lane l).tracker.epoch ∧
      (t.lane l).tap.waiting = none ∧ (t.lane l).tap.poolReason = false ∧
      (t.lane l).capture.reservation = none ∧ (t.lane l).capture.queue = (s.lane l).capture.queue ∧
      l ∉ t.pool.waitingList ∧ (∀ b, (s.lane l).capture.reservation = some b → BufferFreed b s t) ∧
      ((s.lane l).capture.reservation = none → t.pool.freeBuffers = s.pool.freeBuffers) ∧
      t.engine = s.engine ∧ t.pending = s.pending ∧
      Forwarded .towardStation (.completion tag status errorLba) (s.link l) (t.link l) ∧
      OthersKeptButCapture l s t ∧
      (∀ (p : Plan) (start count : Nat), (s.lane l).run.state = .running → (s.lane l).run.plan = some p →
        p.flush = false → status = .good → r.operation = .write start count →
        r.stamp = (s.lane l).run.current → r.marker = none →
        (∀ i x, r.entries[i]? = some x → i = w.index ∨ x = .compared .matched) → p.first ≤ start →
        start + count ≤ p.last + 1 →
        (∀ a, Addresses r.operation a → (s.lane l).defects.lists a = false) →
        (s.lane l).coverage.extents.length ≤ 61 →
        (∀ a, conditionOf (t.lane l).coverage.extents a =
          if a = start + w.index then none
          else if Addresses r.operation a then some .written
          else conditionOf (s.lane l).coverage.extents a) ∧
        (t.lane l).coverage.uncredited = min ((s.lane l).coverage.uncredited + 1) 4294967295 ∧
        (t.lane l).run = { (s.lane l).run with stallTimer := (t.lane l).run.stallTimer } ∧
        (t.lane l).defects = (s.lane l).defects))

/-- A job completes. Its buffer is freed. Without the discard mark its result replaces the PENDING entry, MARKER
with the kind for a sector that carries the signature, MISMATCH for one that was to be compared and differs, else
MATCH, and the marker words of the lowest sector index are kept. With the mark the result is dropped. The engine is
then free, and grants the head job of the first lane with a job, in the round robin's order, with the context of
that job's record and of the run as they now stand (R24, R47, R53, R54, R55, R56, R57, R58, R70, R71). The last
result of a record that has its completion retires it. So a WRITE, all MATCH with this result, GOOD and in RUNNING
with a current stamp, under flush flag 0 and on a map with room, becomes WRITTEN (R24, R26, R29). The order of these
within one command is the model's choice (log 11). -/
def Obligations.JobResultEntersOrIsDropped : Prop :=
  ∀ (f : Flight) (s : State), Sound s → s.engine.inFlight = some f →
    (f.discard = false → ∀ r ∈ (s.lane f.lane).tracker.records, r.tag = f.job.tag →
      r.completion = none ∨ 1 < r.outstanding →
      ∃ t v, exec .jobCompletion s = .next t ∧ BufferFreed f.job.buffer s t ∧
        (CarriesSignature f.job → Differs f →
          v = .marker ((f.job.words.getD 2 0).toNat % 256) .mismatched) ∧
        (CarriesSignature f.job → ¬ Differs f →
          v = .marker ((f.job.words.getD 2 0).toNat % 256) .matched) ∧
        (¬ CarriesSignature f.job → Differs f → v = .compared .mismatched) ∧
        (¬ CarriesSignature f.job → ¬ Differs f → v = .compared .matched) ∧
        (t.lane f.lane).tracker = { (s.lane f.lane).tracker with
          records := mapTag f.job.tag (fun q => { q with
            entries := q.entries.set f.job.index v
            outstanding := q.outstanding - 1
            marker :=
              if CarriesSignature f.job ∧ ∀ m ∈ q.marker, f.job.index < m.index then
                some ⟨f.job.index, f.job.words.take 32⟩
              else q.marker })
            (s.lane f.lane).tracker.records } ∧
        (t.lane f.lane).coverage = (s.lane f.lane).coverage ∧
        (t.lane f.lane).defects = (s.lane f.lane).defects ∧ (t.lane f.lane).run = (s.lane f.lane).run ∧
        (t.lane f.lane).latch = (s.lane f.lane).latch ∧
        (t.lane f.lane).tap = { (s.lane f.lane).tap with
          trigger := (t.lane f.lane).tap.trigger
          poolReason := (t.lane f.lane).tap.poolReason } ∧
        (t.lane f.lane).capture.pacing = (s.lane f.lane).capture.pacing ∧
        GrantedOn s t ∧
        t.links = s.links ∧ OthersKeptButCapture f.lane s t ∧ SharedKeptButCapture s t) ∧
    (f.discard = true →
      ∃ t, exec .jobCompletion s = .next t ∧ BufferFreed f.job.buffer s t ∧
        GrantedOn s t ∧
        (∀ m : LaneId, KeptButCapture (s.lane m) (t.lane m)) ∧ t.links = s.links ∧
        SharedKeptButCapture s t) ∧
    (f.discard = false → ∀ r ∈ (s.lane f.lane).tracker.records, r.tag = f.job.tag →
      r.completion.isSome = true → r.outstanding = 1 →
      ∃ t, exec .jobCompletion s = .next t ∧ BufferFreed f.job.buffer s t ∧
        (t.lane f.lane).tracker.records = withoutTag f.job.tag (s.lane f.lane).tracker.records ∧
        (t.lane f.lane).tracker.epoch = (s.lane f.lane).tracker.epoch ∧
        GrantedOn s t ∧
        t.links = s.links ∧ OthersKeptButCapture f.lane s t ∧ t.pending = s.pending ∧
        (∀ (p : Plan) (start count : Nat), (s.lane f.lane).run.state = .running →
          (s.lane f.lane).run.plan = some p → p.flush = false → r.completion = some ⟨.good, none⟩ →
          r.operation = .write start count → r.stamp = (s.lane f.lane).run.current → r.marker = none →
          (∀ i x, r.entries[i]? = some x → i = f.job.index ∨ x = .compared .matched) →
          ¬ CarriesSignature f.job → ¬ Differs f → p.first ≤ start → start + count ≤ p.last + 1 →
          (∀ a, Addresses r.operation a → (s.lane f.lane).defects.lists a = false) →
          (s.lane f.lane).coverage.extents.length ≤ 62 → LeavesOpen (Addresses r.operation) (s.lane f.lane) →
          (∀ a, conditionOf (t.lane f.lane).coverage.extents a =
            if Addresses r.operation a then some .written
            else conditionOf (s.lane f.lane).coverage.extents a) ∧
          (t.lane f.lane).coverage.uncredited = (s.lane f.lane).coverage.uncredited ∧
          (t.lane f.lane).run =
            { (s.lane f.lane).run with stallTimer := (t.lane f.lane).run.stallTimer } ∧
          (t.lane f.lane).defects = (s.lane f.lane).defects))

/-- The free engine grants the head job of the first lane with a job, searching from the lane after the last-granted
one, with the context of the job's record, run state and plan, and the hold rule is applied to that lane's queue.
With every queue empty it stays free (R50, R53, R54). -/
def Obligations.GrantIsRoundRobin : Prop :=
  ∀ s : State, s.engine.inFlight = none →
    (∀ (l : LaneId) (j : Job) (rest : List Job), NextGranted l j rest s → s.grant.engine.lastGranted = l ∧
      (∃ f, s.grant.engine.inFlight = some f ∧ f.lane = l ∧ f.job = j ∧ f.discard = false ∧
        (((s.lane l).tracker.records.map Record.tag).Nodup → ∀ r ∈ (s.lane l).tracker.records,
          r.tag = j.tag → f.context = some (contextOf r j (s.lane l)))) ∧
      s.grant.lane l = { s.lane l with
        capture := { (s.lane l).capture with queue := rest }
        tap := { (s.lane l).tap with
          trigger := if rest.length ≤ releaseLevel (s.lane l).capture.pacing then false
            else (s.lane l).tap.trigger } } ∧
      s.grant.pool = s.pool ∧ OthersKept l s s.grant ∧ SharedKeptButCapture s s.grant) ∧
    ((∀ l : LaneId, (s.lane l).capture.queue = []) → s.grant = s)

/-! ## Timers -/

/-- The stall timer of a RUNNING, released lane reaches its limit, after the seconds it still lacks (the model's
choice, log 5), and expires: it restarts from 0, STALL is tallied and the plan's action applied once, and where it
closes the run the record of the open pass takes the run clock (R127, R128, R132, R136, R142, R149, R153 to R156).
Each of those seconds is a second of the part, with the expiries of the other lanes that fall in it. Where none
does, the rest of the part only counts the seconds. -/
def Obligations.StallExpiryAppliesAction : Prop :=
  ∀ (l : LaneId) (p : Plan) (k : Stamp) (n : Nat) (s : State), Sound s → StallCounts (s.lane l) →
    (s.lane l).run.plan = some p → (s.lane l).run.current = some k →
    n = [5, 15, 30, 60, 120, 300, 600, 1800].getD p.stall.val 0 - (s.lane l).run.stallTimer →
    ∃ t, exec (.stallExpiry l) s = .next t ∧ StallTaken n p k (s.lane l) (t.lane l) ∧
      t.links = s.links ∧ t.powered = s.powered ∧ t.inReset = s.inReset ∧ t.pending = s.pending ∧
      (n = 1 → ∀ m : LaneId, SecondOn s.store.unitNumber (s.lane m) (t.lane m)) ∧
      (1 < n → ∀ u, step { s with pending := [] } = .next u →
        exec (.stallExpiry l) { u with pending := s.pending } = .next t) ∧
      ((∀ m : LaneId, m ≠ l → NoExpiryWithin n (s.lane m)) → t.pool = s.pool ∧ t.engine = s.engine ∧
        ∀ m : LaneId, m ≠ l → t.lane m = { s.lane m with run := runAfter n (s.lane m) })

/-- The drain timer reaches its limit, after the seconds it still lacks (the model's choice, log 5), and expires:
every pending record is abandoned, the snapshot is taken, with the map's counts in the record of the pass open at
the close, and the pacing code becomes 1. A store that can write leaves the lane in ISSUING. A DEGRADED or exhausted
store answers at once with 0 UNRECORDED (R39, R49, R134, R135, R136, R137, R163). Each of those seconds is a second
of the part, with the expiries of the other lanes that fall in it. Where none does, the rest of the part only counts
the seconds, and the lane's request begins the store's write or joins its queue (R47, R162, R163). -/
def Obligations.DrainExpiryEndsClosing : Prop :=
  ∀ (l : LaneId) (n : Nat) (s : State), Sound s → (s.lane l).run.state = .closing →
    n = limitGiven (s.lane l).run - (s.lane l).run.drainTimer →
    ∃ t c, exec (.drainExpiry l) s = .next t ∧ DrainTaken n s.store.unitNumber c (s.lane l) (t.lane l) ∧
      (∀ f ∈ t.engine.inFlight, f.lane = l → f.discard = true) ∧
      (s.store.status = .ready ∧ s.store.storedNumber < 4294967295 → (t.lane l).run.state = .issuing) ∧
      (s.store.status = .degraded ∨ s.store.storedNumber = 4294967295 →
        (t.lane l).run.state = .issued ∧ (t.lane l).tap.reportReady = true ∧ c.issueNumber = 0 ∧
        c.flag = .unrecorded ∧ c.runSeconds = (t.lane l).run.runClock) ∧
      t.store.storedNumber = s.store.storedNumber ∧ t.store.status = s.store.status ∧ t.links = s.links ∧
      t.powered = s.powered ∧ t.inReset = s.inReset ∧ t.pending = s.pending ∧
      (n = 1 → ∀ m : LaneId, SecondOn s.store.unitNumber (s.lane m) (t.lane m)) ∧
      (1 < n → ∀ u, step { s with pending := [] } = .next u →
        exec (.drainExpiry l) { u with pending := s.pending } = .next t) ∧
      ((∀ m : LaneId, m ≠ l → NoExpiryWithin n (s.lane m)) → AsksStore l c s t ∧
        ∀ m : LaneId, m ≠ l → SecondsCounted n (s.lane m) (t.lane m))

/-! ## Retirement: credit, defects and faults -/

/-- A WRITE with every sector in range, unlisted and MATCH retires GOOD in RUNNING with a current stamp. On a map
with room its sectors become WRITTEN under flush flag 0, or CACHED with epoch E under flush flag 1, whatever they
were before. No other sector changes, but for those of a run of CACHED sectors that touches them, which take the
epoch E. A credit event restarts the stall timer (R29, R90, R93, R94, R106, R142). Where the credit would need more
than 64 extents it is refused and its sectors are counted uncredited: sectors that stand apart from every extent of
a full map stay untouched, and sectors strictly inside an extent of another state lose their credit, with the whole
extent where the map is full (R95, R98, R99). -/
def Obligations.RetiredWriteGivesCredit : Prop :=
  ∀ (l : LaneId) (tag : Tag) (start count : Nat) (e : Option Nat) (r : Record) (p : Plan) (s : State),
    Sound s → s.takesEvents l = true → (s.lane l).run.state = .running → (s.lane l).run.plan = some p →
    ReadyToRetire r (s.lane l) → r.tag = tag → r.operation = .write start count →
    r.stamp = (s.lane l).run.current → r.marker = none → 1 ≤ count →
    (∀ x ∈ r.entries, x = .compared .matched) → p.first ≤ start → start + count ≤ p.last + 1 →
    (∀ a, Addresses r.operation a → (s.lane l).defects.lists a = false) →
    ((s.lane l).coverage.extents.length ≤ 62 → LeavesOpen (Addresses r.operation) (s.lane l) →
    ∃ t, exec (.complete l tag .good e) s = .next t ∧
      (t.lane l).tracker = { (s.lane l).tracker with
        records := withoutTag tag (s.lane l).tracker.records } ∧
      (t.lane l).coverage.uncredited = (s.lane l).coverage.uncredited ∧
      (p.flush = false → ∀ a, conditionOf (t.lane l).coverage.extents a =
        if Addresses r.operation a then some .written else conditionOf (s.lane l).coverage.extents a) ∧
      (p.flush = true → ∀ a,
        (Addresses r.operation a ∨ CachedTouching (s.lane l).coverage.extents start (start + count) a →
          conditionOf (t.lane l).coverage.extents a = some (.cached (s.lane l).tracker.epoch)) ∧
        (¬ Addresses r.operation a → ¬ CachedTouching (s.lane l).coverage.extents start (start + count) a →
          conditionOf (t.lane l).coverage.extents a = conditionOf (s.lane l).coverage.extents a)) ∧
      (t.lane l).run = { (s.lane l).run with stallTimer := (t.lane l).run.stallTimer } ∧
      (p.flush = true ∨ (∃ a, Addresses r.operation a ∧
          ¬ CountsAsWritten (conditionOf (s.lane l).coverage.extents a)) →
        (t.lane l).run.stallTimer = 0) ∧
      (p.flush = false → (∀ a, Addresses r.operation a →
          CountsAsWritten (conditionOf (s.lane l).coverage.extents a)) →
        (t.lane l).run.stallTimer = (s.lane l).run.stallTimer) ∧
      (t.lane l).defects = (s.lane l).defects ∧ (t.lane l).capture = (s.lane l).capture ∧
      (t.lane l).tap = withSlot tag none (s.lane l).tap ∧ (t.lane l).latch = (s.lane l).latch ∧
      Forwarded .towardStation (.completion tag .good e) (s.link l) (t.link l) ∧ OthersKept l s t ∧
      SharedKept s t) ∧
    ((s.lane l).coverage.extents.length = 64 →
    (∀ a, Addresses r.operation a ∨ a + 1 = start ∨ a = start + count →
      conditionOf (s.lane l).coverage.extents a = none) →
    ∃ t, exec (.complete l tag .good e) s = .next t ∧
      t.lane l = { s.lane l with
        tap := withSlot tag none (s.lane l).tap
        tracker := { (s.lane l).tracker with records := withoutTag tag (s.lane l).tracker.records }
        coverage := { (s.lane l).coverage with
          uncredited := min ((s.lane l).coverage.uncredited + count) 4294967295 } } ∧
      Forwarded .towardStation (.completion tag .good e) (s.link l) (t.link l) ∧ OthersKept l s t ∧
      SharedKept s t) ∧
    (∀ y ∈ (s.lane l).coverage.extents, 63 ≤ (s.lane l).coverage.extents.length → y.first < start →
    start + count ≤ y.last → y.credit = .verified ∨ (p.flush = true ∧ y.credit = .written) →
    ∃ t, exec (.complete l tag .good e) s = .next t ∧
      ((s.lane l).coverage.extents.length = 63 → ∀ a, conditionOf (t.lane l).coverage.extents a =
        if Addresses r.operation a then none else conditionOf (s.lane l).coverage.extents a) ∧
      ((s.lane l).coverage.extents.length = 64 → ∀ a, conditionOf (t.lane l).coverage.extents a =
        if y.first ≤ a ∧ a ≤ y.last then none else conditionOf (s.lane l).coverage.extents a) ∧
      (t.lane l).coverage.uncredited = min ((s.lane l).coverage.uncredited + count) 4294967295 ∧
      (t.lane l).run = (s.lane l).run ∧
      (t.lane l).tracker = { (s.lane l).tracker with
        records := withoutTag tag (s.lane l).tracker.records } ∧
      (t.lane l).defects = (s.lane l).defects ∧ (t.lane l).capture = (s.lane l).capture ∧
      (t.lane l).tap = withSlot tag none (s.lane l).tap ∧ (t.lane l).latch = (s.lane l).latch ∧
      Forwarded .towardStation (.completion tag .good e) (s.link l) (t.link l) ∧ OthersKept l s t ∧
      SharedKept s t)

/-- A READ in range retires GOOD in RUNNING with a current stamp. Every sector MATCH, on a map with room: its
WRITTEN sectors become VERIFIED, its other sectors and all others keep their condition, and a sector so verified
restarts the stall timer (R32, R96, R106, R142). Strictly inside a WRITTEN extent of a map with 63 or 64 extents the
credit is refused: every condition stands, and its sectors are counted uncredited (R97). Every sector MISMATCH,
under action NOTE and with room in map and list: each sector that held credit is listed as a MISMATCH defect of the
pass and loses its credit, untouched ones stay, and READ_MISMATCH is tallied once with the lowest of them if there
is one, DEFECT_OVERRUN if the total passes the allowance (R32, R100, R112, R116). -/
def Obligations.RetiredReadVerifies : Prop :=
  ∀ (l : LaneId) (tag : Tag) (start count : Nat) (e : Option Nat) (r : Record) (p : Plan) (s : State),
    Sound s → s.takesEvents l = true → (s.lane l).run.state = .running → (s.lane l).run.plan = some p →
    ReadyToRetire r (s.lane l) → r.tag = tag → r.operation = .read start count →
    r.stamp = (s.lane l).run.current → p.first ≤ start → start + count ≤ p.last + 1 →
    ((∀ x ∈ r.entries, x = .compared .matched) → (s.lane l).coverage.extents.length ≤ 62 →
    LeavesOpen (Addresses r.operation) (s.lane l) →
    ∃ t, exec (.complete l tag .good e) s = .next t ∧
      (t.lane l).tracker = { (s.lane l).tracker with
        records := withoutTag tag (s.lane l).tracker.records } ∧
      (∀ a, conditionOf (t.lane l).coverage.extents a =
        if Addresses r.operation a ∧ conditionOf (s.lane l).coverage.extents a = some .written then
          some .verified
        else conditionOf (s.lane l).coverage.extents a) ∧
      (t.lane l).coverage.uncredited = (s.lane l).coverage.uncredited ∧
      (t.lane l).run = { (s.lane l).run with stallTimer := (t.lane l).run.stallTimer } ∧
      ((∃ a, Addresses r.operation a ∧ conditionOf (s.lane l).coverage.extents a = some .written) →
        (t.lane l).run.stallTimer = 0) ∧
      ((∀ a, Addresses r.operation a → conditionOf (s.lane l).coverage.extents a ≠ some .written) →
        t.lane l = { s.lane l with
          tap := withSlot tag none (s.lane l).tap
          tracker := { (s.lane l).tracker with
            records := withoutTag tag (s.lane l).tracker.records } }) ∧
      (t.lane l).defects = (s.lane l).defects ∧ (t.lane l).capture = (s.lane l).capture ∧
      (t.lane l).tap = withSlot tag none (s.lane l).tap ∧ (t.lane l).latch = (s.lane l).latch ∧
      Forwarded .towardStation (.completion tag .good e) (s.link l) (t.link l) ∧ OthersKept l s t ∧
      SharedKept s t) ∧
    ((∀ x ∈ r.entries, x = .compared .matched) → 1 ≤ count → 63 ≤ (s.lane l).coverage.extents.length →
    (∃ y ∈ (s.lane l).coverage.extents, y.credit = .written ∧ y.first < start ∧ start + count ≤ y.last) →
    ∃ t, exec (.complete l tag .good e) s = .next t ∧
      t.lane l = { s.lane l with
        tap := withSlot tag none (s.lane l).tap
        tracker := { (s.lane l).tracker with records := withoutTag tag (s.lane l).tracker.records }
        coverage := { (s.lane l).coverage with
          uncredited := min ((s.lane l).coverage.uncredited + count) 4294967295 } } ∧
      Forwarded .towardStation (.completion tag .good e) (s.link l) (t.link l) ∧ OthersKept l s t ∧
      SharedKept s t) ∧
    ((∀ x ∈ r.entries, x = .compared .mismatched) → p.actions[1] = .note → p.actions[5] = .note →
    (s.lane l).coverage.extents.length + count ≤ 64 → (s.lane l).defects.entries.length + count ≤ 24 →
    LeavesOpen (Addresses r.operation) (s.lane l) →
    ∃ t, exec (.complete l tag .good e) s = .next t ∧
      (t.lane l).tracker = { (s.lane l).tracker with
        records := withoutTag tag (s.lane l).tracker.records } ∧
      (∀ a, conditionOf (t.lane l).coverage.extents a =
        if Addresses r.operation a then none else conditionOf (s.lane l).coverage.extents a) ∧
      (∀ a, (t.lane l).defects.lists a = true ↔ (s.lane l).defects.lists a = true ∨
        (Addresses r.operation a ∧ conditionOf (s.lane l).coverage.extents a ≠ none)) ∧
      (∀ a, Addresses r.operation a → conditionOf (s.lane l).coverage.extents a ≠ none →
        ∃ d ∈ (t.lane l).defects.entries, d.holds a = true ∧ d.kind = .mismatch ∧
          ∀ k, (s.lane l).run.current = some k → d.pass = k.pass) ∧
      (t.lane l).defects.total = (s.lane l).defects.total + (List.range' start count).countP
        (fun a => (conditionOf (s.lane l).coverage.extents a).isSome) ∧
      (t.lane l).defects.unlisted = (s.lane l).defects.unlisted ∧
      (t.lane l).coverage.uncredited = (s.lane l).coverage.uncredited ∧
      (t.lane l).run = { (s.lane l).run with
        tallies := (t.lane l).run.tallies
        firstFault := (t.lane l).run.firstFault } ∧
      (∀ a, Lowest (fun b => Addresses r.operation b ∧
          conditionOf (s.lane l).coverage.extents b ≠ none) a →
        GroupTallied (⟨.readMismatch, some a⟩ ::
          if (s.lane l).defects.total ≤ p.allowance ∧ p.allowance < (t.lane l).defects.total then
            [⟨.defectOverrun, none⟩] else []) (s.lane l).run (t.lane l).run) ∧
      ((∀ a, Addresses r.operation a → conditionOf (s.lane l).coverage.extents a = none) →
        GroupTallied [] (s.lane l).run (t.lane l).run) ∧
      (t.lane l).capture = (s.lane l).capture ∧
      (t.lane l).tap = withSlot tag none (s.lane l).tap ∧ (t.lane l).latch = (s.lane l).latch ∧
      Forwarded .towardStation (.completion tag .good e) (s.link l) (t.link l) ∧ OthersKept l s t ∧
      SharedKept s t)

/-- A WRITE without a marker retires. In RUNNING with a current stamp, GOOD, with every sector in range and
MISMATCH, under action NOTE and on a map with room: its sectors become untouched, WRITE_MISMATCH is tallied once,
with its first sector for an empty first-fault record, and no defect is listed (R29, R98, R145, R149, R150, R153).
In RUNNING with a stale stamp, or in SUSPENDED, whatever its entries and with no in-range error sector: its whole
in-range part becomes untouched, a stale stamp is counted, and its faults are WRITE_MISMATCH at its lowest in-range
mismatch of the good part if its stamp is current, MEDIUM_ERROR after an ERROR, and FOREIGN_WRITE at the lowest
sector outside the range other than the anchor (R30, R31). In RUNNING with a current stamp and nothing in range,
FOREIGN_WRITE alone, and nothing at all where it touches only the anchor. In RUNNING and SUSPENDED alike, whatever
its stamp, status and entries and the plan's actions, FOREIGN_WRITE is tallied once exactly where it touches a
sector outside the range other than the anchor (R31). -/
def Obligations.MismatchedWriteLosesCredit : Prop :=
  ∀ (l : LaneId) (tag : Tag) (start count : Nat) (e : Option Nat) (r : Record) (p : Plan) (s : State),
    Sound s → s.takesEvents l = true → (s.lane l).run.plan = some p →
    ReadyToRetire r (s.lane l) → r.tag = tag → r.operation = .write start count → r.marker = none →
    ((s.lane l).run.state = .running → r.stamp = (s.lane l).run.current → 1 ≤ count →
    (∀ x ∈ r.entries, x = .compared .mismatched) → p.first ≤ start → start + count ≤ p.last + 1 →
    p.actions[0] = .note → (s.lane l).coverage.extents.length ≤ 63 →
    LeavesOpen (fun _ => False) (s.lane l) →
    ∃ t, exec (.complete l tag .good e) s = .next t ∧
      (∀ a, conditionOf (t.lane l).coverage.extents a =
        if Addresses r.operation a then none else conditionOf (s.lane l).coverage.extents a) ∧
      (t.lane l).run = { (s.lane l).run with
        tallies := tallied 0 (s.lane l).run.tallies
        firstFault := firstFaultAfter ⟨.writeMismatch, some start⟩ (s.lane l).run } ∧
      (t.lane l).tracker = { (s.lane l).tracker with
        records := withoutTag tag (s.lane l).tracker.records } ∧
      (t.lane l).coverage.uncredited = (s.lane l).coverage.uncredited ∧
      (t.lane l).defects = (s.lane l).defects ∧ (t.lane l).capture = (s.lane l).capture ∧
      (t.lane l).tap = withSlot tag none (s.lane l).tap ∧ (t.lane l).latch = (s.lane l).latch ∧
      Forwarded .towardStation (.completion tag .good e) (s.link l) (t.link l) ∧ OthersKept l s t ∧
      SharedKept s t) ∧
    (∀ status : Status,
    ((s.lane l).run.state = .running ∧ r.stamp ≠ (s.lane l).run.current) ∨ (s.lane l).run.state = .suspended →
    (status = .error → ∀ k, e = some k → Addresses r.operation k → ¬ InTarget (s.lane l) k) →
    p.actions[0] = .note → p.actions[2] = .note → p.actions[3] = .note →
    (s.lane l).coverage.extents.length ≤ 63 → LeavesOpen (fun _ => False) (s.lane l) →
    ∃ t g, exec (.complete l tag status e) s = .next t ∧
      (∀ a, conditionOf (t.lane l).coverage.extents a =
        if Addresses r.operation a ∧ p.first ≤ a ∧ a ≤ p.last then none
        else conditionOf (s.lane l).coverage.extents a) ∧
      g.Pairwise (fun f q : LaneFault => f.cls.code < q.cls.code) ∧
      (∀ f : LaneFault, f ∈ g ↔
        (f.cls = .writeMismatch ∧ r.stamp = (s.lane l).run.current ∧ ∃ a, f.lba = some a ∧
          Lowest (fun b => Addresses r.operation b ∧ InTarget (s.lane l) b ∧
            InGoodPart status e r.operation b ∧
            ∃ x, r.entries[b - start]? = some x ∧ saysMismatch x = true) a) ∨
        (f.cls = .mediumError ∧ status = .error ∧
          ∀ k, f.lba = some k ↔ e = some k ∧ Addresses r.operation k) ∨
        (f.cls = .foreignWrite ∧ ∃ a, f.lba = some a ∧
          Lowest (fun b => Addresses r.operation b ∧ ¬ InTarget (s.lane l) b ∧
            (s.lane l).run.anchor ≠ some b) a)) ∧
      GroupTallied g (s.lane l).run (t.lane l).run ∧
      (t.lane l).run = { (s.lane l).run with
        tallies := (t.lane l).run.tallies
        firstFault := (t.lane l).run.firstFault
        stale := if r.stamp = (s.lane l).run.current then (s.lane l).run.stale
          else min ((s.lane l).run.stale + 1) 65535 } ∧
      (t.lane l).tracker = { (s.lane l).tracker with
        records := withoutTag tag (s.lane l).tracker.records } ∧
      (t.lane l).coverage.uncredited = (s.lane l).coverage.uncredited ∧
      (t.lane l).defects = (s.lane l).defects ∧ (t.lane l).capture = (s.lane l).capture ∧
      (t.lane l).tap = withSlot tag none (s.lane l).tap ∧ (t.lane l).latch = (s.lane l).latch ∧
      Forwarded .towardStation (.completion tag status e) (s.link l) (t.link l) ∧ OthersKept l s t ∧
      SharedKept s t) ∧
    ((s.lane l).run.state = .running → r.stamp = (s.lane l).run.current →
    (∀ a, Addresses r.operation a → ¬ InTarget (s.lane l) a) → p.actions[3] = .note →
    ∃ t, exec (.complete l tag .good e) s = .next t ∧
      (t.lane l).coverage = (s.lane l).coverage ∧
      (t.lane l).tracker = { (s.lane l).tracker with
        records := withoutTag tag (s.lane l).tracker.records } ∧
      ((∃ a, Addresses r.operation a ∧ (s.lane l).run.anchor ≠ some a) →
        (t.lane l).run = { (s.lane l).run with
          tallies := tallied 3 (s.lane l).run.tallies
          firstFault := firstFaultAfter
            ⟨.foreignWrite, some (if (s.lane l).run.anchor = some start then start + 1 else start)⟩
            (s.lane l).run }) ∧
      ((∀ a, Addresses r.operation a → (s.lane l).run.anchor = some a) →
        (t.lane l).run = (s.lane l).run) ∧
      (t.lane l).defects = (s.lane l).defects ∧ (t.lane l).capture = (s.lane l).capture ∧
      (t.lane l).tap = withSlot tag none (s.lane l).tap ∧ (t.lane l).latch = (s.lane l).latch ∧
      Forwarded .towardStation (.completion tag .good e) (s.link l) (t.link l) ∧ OthersKept l s t ∧
      SharedKept s t) ∧
    (∀ status : Status, (s.lane l).run.state = .running ∨ (s.lane l).run.state = .suspended →
    ∃ t, exec (.complete l tag status e) s = .next t ∧
      ((∃ a, Addresses r.operation a ∧ ¬ InTarget (s.lane l) a ∧ (s.lane l).run.anchor ≠ some a) →
        (t.lane l).run.tallies[3] = min ((s.lane l).run.tallies[3] + 1) 65535) ∧
      ((∀ a, Addresses r.operation a → InTarget (s.lane l) a ∨ (s.lane l).run.anchor = some a) →
        (t.lane l).run.tallies[3] = (s.lane l).run.tallies[3]))

/-- A WRITE or READ, with no MISMATCH entry, retires in RUNNING or SUSPENDED with ERROR at an in-range sector that
no entry holds. Whatever its stamp and the plan's actions, MEDIUM_ERROR is tallied and the sector ends without
credit. With a place free it is listed with the kind of its command and the pass index, the total rising by 1. With
24 entries, none of which it extends, the unlisted counter rises by 1 instead (R33, R100, R112, R113, R114, R149).
-/
def Obligations.ErrorSectorIsListed : Prop :=
  ∀ (l : LaneId) (tag : Tag) (e : Nat) (r : Record) (k : Stamp) (kind : DefectKind) (s : State), Sound s →
    s.takesEvents l = true → (s.lane l).run.state = .running ∨ (s.lane l).run.state = .suspended →
    (s.lane l).run.current = some k → ReadyToRetire r (s.lane l) → r.tag = tag →
    (r.operation.isWrite = true ∧ kind = .writeFail) ∨ (isRead r.operation = true ∧ kind = .readFail) →
    (∀ x ∈ r.entries, x ≠ .compared .mismatched ∧ ∀ n, x ≠ .marker n .mismatched) →
    Addresses r.operation e → InTarget (s.lane l) e →
    (s.lane l).defects.lists e = false →
    ∃ t, exec (.complete l tag .error (some e)) s = .next t ∧
      (t.lane l).run.tallies[2] = min ((s.lane l).run.tallies[2] + 1) 65535 ∧
      conditionOf (t.lane l).coverage.extents e = none ∧
      ((s.lane l).defects.entries.length < 24 →
        (t.lane l).defects.total = (s.lane l).defects.total + 1 ∧
        (t.lane l).defects.unlisted = (s.lane l).defects.unlisted ∧
        (∃ d ∈ (t.lane l).defects.entries, d.holds e = true ∧ d.kind = kind ∧ d.pass = k.pass) ∧
        ∀ a, (t.lane l).defects.lists a = (decide (a = e) || (s.lane l).defects.lists a)) ∧
      ((s.lane l).defects.entries.length = 24 →
        (∀ d ∈ (s.lane l).defects.entries, d.first + d.count ≠ e ∧ d.first ≠ e + 1) →
        (t.lane l).defects = { (s.lane l).defects with
          unlisted := min ((s.lane l).defects.unlisted + 1) 4294967295 }) ∧
      (t.lane l).tracker = { (s.lane l).tracker with
        records := withoutTag tag (s.lane l).tracker.records } ∧
      (t.lane l).capture.queue = (s.lane l).capture.queue ∧ (t.lane l).latch = (s.lane l).latch ∧
      t.pool = s.pool ∧ t.engine = s.engine ∧ t.pending = s.pending ∧
      Forwarded .towardStation (.completion tag .error (some e)) (s.link l) (t.link l) ∧
      OthersKept l s t

/-- A FLUSH retires GOOD in RUNNING or SUSPENDED: CACHED sectors whose epoch is at or below its flush number become
WRITTEN, every other sector keeps its condition, and a promotion restarts the stall timer. The greatest flush number
promotes nothing (R20, R35, R101, R106, R142). That a promotion in SUSPENDED sets the timer, then stopped, to 0 is
inferred (log 26). -/
def Obligations.RetiredFlushPromotes : Prop :=
  ∀ (l : LaneId) (tag : Tag) (number : Nat) (e : Option Nat) (r : Record) (s : State), Sound s →
    s.takesEvents l = true → (s.lane l).run.state = .running ∨ (s.lane l).run.state = .suspended →
    r ∈ (s.lane l).tracker.records → r.tag = tag → r.operation = .flush number → r.marker = none →
    (∃ p, (s.lane l).run.plan = some p ∧ ∃ a, p.first ≤ a ∧ a ≤ p.last ∧
      conditionOf (s.lane l).coverage.extents a = none ∧ (s.lane l).defects.lists a = false) →
    ∃ t, exec (.complete l tag .good e) s = .next t ∧
      (∀ a, conditionOf (t.lane l).coverage.extents a =
        match conditionOf (s.lane l).coverage.extents a with
        | some (.cached k) =>
          if k ≤ number ∧ number < 4294967295 then some .written else some (.cached k)
        | other => other) ∧
      (t.lane l).coverage.uncredited = (s.lane l).coverage.uncredited ∧
      (t.lane l).run = { (s.lane l).run with stallTimer := (t.lane l).run.stallTimer } ∧
      ((∃ a k, conditionOf (s.lane l).coverage.extents a = some (.cached k) ∧ k ≤ number ∧
        number < 4294967295) → (t.lane l).run.stallTimer = 0) ∧
      (t.lane l).tracker = { (s.lane l).tracker with
        records := withoutTag tag (s.lane l).tracker.records } ∧
      (t.lane l).defects = (s.lane l).defects ∧ (t.lane l).capture = (s.lane l).capture ∧
      (t.lane l).tap = withSlot tag none (s.lane l).tap ∧ (t.lane l).latch = (s.lane l).latch ∧
      Forwarded .towardStation (.completion tag .good e) (s.link l) (t.link l) ∧ OthersKept l s t ∧
      SharedKept s t

/-- A DISCARD that touches the target range retires in RUNNING or SUSPENDED, whatever its status, under action NOTE
and on a map with room: its in-range sectors become untouched, FOREIGN_WRITE is tallied, MEDIUM_ERROR too after an
ERROR, and nothing is listed (R34, R98, R145, R149). -/
def Obligations.DiscardRemovesCredit : Prop :=
  ∀ (l : LaneId) (tag : Tag) (start count : Nat) (status : Status) (e : Option Nat) (r : Record) (p : Plan)
    (s : State), Sound s → s.takesEvents l = true →
    (s.lane l).run.state = .running ∨ (s.lane l).run.state = .suspended → (s.lane l).run.plan = some p →
    r ∈ (s.lane l).tracker.records → r.tag = tag → r.operation = .discard start count → r.marker = none →
    r.outstanding = 0 →
    (∃ a, Addresses r.operation a ∧ p.first ≤ a ∧ a ≤ p.last) → p.actions[2] = .note → p.actions[3] = .note →
    (s.lane l).coverage.extents.length ≤ 63 → LeavesOpen (fun _ => False) (s.lane l) →
    ∃ t, exec (.complete l tag status e) s = .next t ∧
      (∀ a, conditionOf (t.lane l).coverage.extents a =
        if Addresses r.operation a ∧ p.first ≤ a ∧ a ≤ p.last then none
        else conditionOf (s.lane l).coverage.extents a) ∧
      (t.lane l).run.tallies = tallied 3
        (match status with
        | .good => (s.lane l).run.tallies
        | .error => tallied 2 (s.lane l).run.tallies) ∧
      (t.lane l).run = { (s.lane l).run with
        tallies := (t.lane l).run.tallies
        firstFault := (t.lane l).run.firstFault } ∧
      ((s.lane l).run.firstFault ≠ none → (t.lane l).run.firstFault = (s.lane l).run.firstFault) ∧
      (t.lane l).tracker = { (s.lane l).tracker with
        records := withoutTag tag (s.lane l).tracker.records } ∧
      (t.lane l).coverage.uncredited = (s.lane l).coverage.uncredited ∧
      (t.lane l).defects = (s.lane l).defects ∧ (t.lane l).capture = (s.lane l).capture ∧
      (t.lane l).tap = withSlot tag none (s.lane l).tap ∧ (t.lane l).latch = (s.lane l).latch ∧
      Forwarded .towardStation (.completion tag status e) (s.link l) (t.link l) ∧ OthersKept l s t ∧
      SharedKept s t

/-- A retirement's fault group is ordered by class code, and holds at most one fault of each class, but at most two
of DEFECT_OVERRUN (R146). -/
def Obligations.RetirementGroupIsOrdered : Prop :=
  ∀ (taken : Option TakenMarker) (r : Record) (x : Lane), LaneLaw x →
    (handOver taken r x).faults.Pairwise (fun f g => f.cls.code ≤ g.cls.code) ∧
    ∀ c : FaultClass, ((handOver taken r x).faults.filter (fun f => decide (f.cls = c))).length ≤
      (if c = .defectOverrun then 2 else 1)

/-- The action of a group is the strongest of its faults' actions in the order FAIL, RESTART, SUSPEND, NOTE, and its
deciding class is that of the first member whose own action it is (R151, R152). -/
def Obligations.GroupActionIsStrongest : Prop :=
  ∀ (c : RunControl) (p : Plan) (g : List LaneFault), c.plan = some p → g ≠ [] →
    (∀ f ∈ g, (p.actions[f.cls.place.val]).code ≤ (c.groupAction g).code) ∧
    ∃ before f after, g = before ++ f :: after ∧ p.actions[f.cls.place.val] = c.groupAction g ∧
      c.decidingClass g = some f.cls ∧
      ∀ q ∈ before, p.actions[q.cls.place.val] ≠ c.groupAction g

/-! ## Markers and plans -/

/-- A PLAN taken in IDLE, REJECTED or ISSUED whose tests all pass starts a run at the sector that carried it:
RUNNING at pass 1 attempt 1, with map, list, tallies and counters cleared, the report discarded, the pacing code the
plan's with the trigger reason tested, the flush epoch kept, and the lamp ACTIVE (R17, R51, R80, R85, R129). The
plan record holds each field from its place in the plan's words, a pacing value above 3 taken as 3 and a stall
selection above 7 as 7 (R82, R84, R173). -/
def Obligations.PlanAcceptedStartsRun : Prop :=
  ∀ (l : LaneId) (tag : Tag) (start count : Nat) (e : Option Nat) (r : Record) (m : MarkerCopy)
    (size : SectorSize) (s : State), Sound s → s.takesEvents l = true →
    (s.lane l).tap.sectorSize = some size →
    (s.lane l).run.state = .idle ∨ (s.lane l).run.state = .rejected ∨ (s.lane l).run.state = .issued →
    ReadyToRetire r (s.lane l) → r.tag = tag → r.operation = .write start count → r.marker = some m →
    (m.words.getD 2 0).toNat % 256 = 1 →
    planFailure (decide (s.store.status ≠ .starting)) size m.words = none →
    ∃ t p, exec (.complete l tag .good e) s = .next t ∧ p = decodePlan size m.words ∧
      PlanFields size m.words p ∧
      (t.lane l).run.state = .running ∧ (t.lane l).run.anchor = some (start + m.index) ∧
      (t.lane l).run.runId = some p.runId ∧ (t.lane l).run.plan = some p ∧
      (t.lane l).run.refusal = none ∧ (t.lane l).run.current = some ⟨1, 1⟩ ∧
      (t.lane l).run.runClock = 0 ∧ (t.lane l).run.stallTimer = 0 ∧ (t.lane l).run.verdict = none ∧
      (t.lane l).run.stale = 0 ∧ (t.lane l).run.held = .absent ∧ (t.lane l).run.firstFault = none ∧
      (∀ i : Fin 7, (t.lane l).run.tallies[i.val] = 0) ∧
      (∀ i : Fin 4, (t.lane l).run.passRecords[i.val].status =
          (if i.val = 0 then .incomplete else .notReached) ∧
        (t.lane l).run.passRecords[i.val].attempts = (if i.val = 0 then 1 else 0) ∧
        (t.lane l).run.passRecords[i.val].written = 0 ∧ (t.lane l).run.passRecords[i.val].verified = 0 ∧
        (t.lane l).run.passRecords[i.val].seconds = 0 ∧
        ∀ d ∈ p.passes[i.val]?, (t.lane l).run.passRecords[i.val].kind = d.kind ∧
          (t.lane l).run.passRecords[i.val].verify = d.verify) ∧
      (t.lane l).coverage = { extents := [], uncredited := 0 } ∧
      (t.lane l).defects = { entries := [], unlisted := 0, total := 0 } ∧
      (t.lane l).tracker = {
        records := withoutTag tag (s.lane l).tracker.records
        epoch := (s.lane l).tracker.epoch
        untracked := 0 } ∧
      (t.lane l).capture = { (s.lane l).capture with pacing := p.pacing } ∧
      (t.lane l).tap.trigger =
        (if (s.lane l).capture.queue.length ≤ releaseLevel p.pacing then false
        else if holdLevel p.pacing ≤ (s.lane l).capture.queue.length then true
        else (s.lane l).tap.trigger) ∧
      (t.lane l).tap = { withSlot tag none (s.lane l).tap with
        reportReady := false
        trigger := (t.lane l).tap.trigger } ∧
      (t.lane l).latch = (s.lane l).latch ∧ t.lamp l = .active ∧
      Forwarded .towardStation (.completion tag .good e) (s.link l) (t.link l) ∧ OthersKept l s t ∧
      SharedKept s t

/-- A PLAN taken in IDLE, REJECTED or ISSUED that fails a test puts the lane in REJECTED at the sector that carried
it, with the run id words as found, the reason, a rejection report, the report-ready flag set and the lamp FAIL.
Map, list, tracker counters, tallies, pass records and stale counter keep what they held, and no issue number is
consumed (R16, R80, R86, R172). -/
def Obligations.PlanRefusedRejectsLane : Prop :=
  ∀ (l : LaneId) (tag : Tag) (start count : Nat) (e : Option Nat) (r : Record) (m : MarkerCopy)
    (size : SectorSize) (reason : RefusalReason) (s : State), Sound s → s.takesEvents l = true →
    (s.lane l).tap.sectorSize = some size →
    (s.lane l).run.state = .idle ∨ (s.lane l).run.state = .rejected ∨ (s.lane l).run.state = .issued →
    ReadyToRetire r (s.lane l) → r.tag = tag → r.operation = .write start count → r.marker = some m →
    (m.words.getD 2 0).toNat % 256 = 1 →
    planFailure (decide (s.store.status ≠ .starting)) size m.words = some reason →
    ∃ t, exec (.complete l tag .good e) s = .next t ∧
      (t.lane l).run = { (s.lane l).run with
        state := .rejected
        anchor := some (start + m.index)
        runId := some (m.words.getD 4 0 ++ m.words.getD 3 0)
        refusal := some reason
        plan := none
        current := none
        verdict := none
        runClock := 0
        stallTimer := 0
        drainTimer := 0
        held := .rejection ⟨reason, s.store.unitNumber, size, m.words.getD 4 0 ++ m.words.getD 3 0⟩ } ∧
      (t.lane l).tap = { withSlot tag none (s.lane l).tap with reportReady := true } ∧
      (t.lane l).tracker = { (s.lane l).tracker with
        records := withoutTag tag (s.lane l).tracker.records } ∧
      (t.lane l).coverage = (s.lane l).coverage ∧ (t.lane l).defects = (s.lane l).defects ∧
      (t.lane l).capture = (s.lane l).capture ∧ (t.lane l).latch = (s.lane l).latch ∧
      t.lamp l = .fail ∧ t.alertAsserted = true ∧
      Forwarded .towardStation (.completion tag .good e) (s.link l) (t.link l) ∧ OthersKept l s t ∧
      SharedKept s t

/-- A plan is tested in the order of R81, and the first test it fails gives the reason, with its code (R81, R82,
R83, R173). -/
def Obligations.PlanTestsInOrder : Prop :=
  [RefusalReason.notReady, .check, .version, .reserved, .sector, .range, .passes, .pattern, .verify, .action].map
    RefusalReason.code = [25, 16, 17, 18, 20, 19, 21, 22, 23, 24] ∧
  ∀ (readEnded : Bool) (size : SectorSize) (w : List Word),
    planFailure readEnded size w =
      (([(.notReady, decide (readEnded = false)),
        (.check, decide ((w.take 32).foldr (· + ·) 0 ≠ 0)),
        (.version, decide (byteOf 1 (wordAt w 2) ≠ 1)),
        (.reserved, decide (byteOf 2 (wordAt w 2) ≠ 0 ∨ byteOf 3 (wordAt w 2) ≠ 0 ∨
          byteOf 3 (wordAt w 10) ≠ 0 ∨ byteOf 3 (wordAt w 12) ≠ 0 ∨
          (∃ i : Fin 4, i.val < byteOf 1 (wordAt w 9) ∧
            (byteOf 2 (wordAt w (13 + 4 * i.val)) ≠ 0 ∨ byteOf 3 (wordAt w (13 + 4 * i.val)) ≠ 0)) ∨
          wordAt w 30 ≠ 0 ∨ wordAt w 31 ≠ 0 ∨ 1 < byteOf 2 (wordAt w 9))),
        (.sector, decide (byteOf 0 (wordAt w 9) ≠ match size with | .bytes512 => 0 | .bytes4096 => 1)),
        (.range, decide (65536 ≤ (wordAt w 6).toNat ∨ 65536 ≤ (wordAt w 8).toNat ∨
          (wordAt w 7).toNat + 4294967296 * (wordAt w 8).toNat <
            (wordAt w 5).toNat + 4294967296 * (wordAt w 6).toNat)),
        (.passes, decide (byteOf 1 (wordAt w 9) < 1 ∨ 4 < byteOf 1 (wordAt w 9))),
        (.pattern, decide ((∃ i : Fin 4, i.val < byteOf 1 (wordAt w 9) ∧
          3 < byteOf 0 (wordAt w (13 + 4 * i.val))) ∨ byteOf 0 (wordAt w 13) = 3)),
        (.verify, decide (∃ i : Fin 4, i.val < byteOf 1 (wordAt w 9) ∧
          (2 < byteOf 1 (wordAt w (13 + 4 * i.val)) ∨ (byteOf 1 (wordAt w (13 + 4 * i.val)) = 1 ∧
            ((wordAt w (16 + 4 * i.val)).toNat % 65536 < 2 ∨
              (wordAt w (16 + 4 * i.val)).toNat % 65536 ≤
                (wordAt w (16 + 4 * i.val)).toNat / 65536))))),
        (.action, decide ((∃ i : Fin 4, 3 < byteOf i.val (wordAt w 11)) ∨
          ∃ i : Fin 3, 3 < byteOf i.val (wordAt w 12)))] : List (RefusalReason × Bool)).find?
        (fun q => q.2)).map Prod.fst

/-- A control marker that passes R75 at the anchor, alone in its WRITE, acts: a HALT in RUNNING or SUSPENDED closes
the run HALTED, the record of the open pass taking the run clock, a RESUME in SUSPENDED returns the lane to RUNNING
with its stall timer restarted, a RELEASE in ISSUED or REJECTED returns it to IDLE without its report, its anchor
and its plan. None changes credit, defects or tallies (R74, R75, R76, R77, R78, R132, R136). That the marker's
sector keeps its credit in SUSPENDED is inferred (log 15). -/
def Obligations.ControlMarkersAct : Prop :=
  ∀ (l : LaneId) (tag : Tag) (start kind : Nat) (e : Option Nat) (r : Record) (w : List Word) (s : State),
    Sound s → s.takesEvents l = true → ReadyToRetire r (s.lane l) → r.tag = tag →
    r.operation = .write start 1 → r.marker = some ⟨0, w⟩ → (∃ o, r.entries = [.marker kind o]) →
    (s.lane l).run.anchor = some start →
    (w.take 8).foldr (· + ·) 0 = 0 → w.getD 2 0 = BitVec.ofNat 32 (kind + 256) → w.getD 5 0 = 0 →
    w.getD 6 0 = 0 → (s.lane l).run.runId = some (w.getD 4 0 ++ w.getD 3 0) →
    (kind = 3 → r.stamp = (s.lane l).run.current →
      (s.lane l).run.state = .running ∨ (s.lane l).run.state = .suspended →
      ∃ t, exec (.complete l tag .good e) s = .next t ∧ ClosedWith ⟨.halted, .halt⟩ (t.lane l) ∧
        RecordsClosed (s.lane l) (t.lane l) ∧ (t.lane l).run.runClock = (s.lane l).run.runClock ∧
        (t.lane l).run.current = (s.lane l).run.current ∧ (t.lane l).run.stallTimer = 0 ∧
        (t.lane l).run.tallies = (s.lane l).run.tallies ∧ (t.lane l).coverage = (s.lane l).coverage ∧
        (t.lane l).defects = (s.lane l).defects ∧
        (t.lane l).tracker = { (s.lane l).tracker with
          records := withoutTag tag (s.lane l).tracker.records } ∧
        (t.lane l).capture.queue = (s.lane l).capture.queue ∧ (t.lane l).latch = (s.lane l).latch ∧
        t.pool = s.pool ∧ t.engine = s.engine ∧ t.pending = s.pending ∧
        Forwarded .towardStation (.completion tag .good e) (s.link l) (t.link l) ∧ OthersKept l s t) ∧
    (kind = 2 → r.stamp = (s.lane l).run.current → (s.lane l).run.state = .suspended →
      LeavesOpen (fun _ => False) (s.lane l) →
      ∃ t, exec (.complete l tag .good e) s = .next t ∧
        t.lane l = { s.lane l with
          tap := withSlot tag none (s.lane l).tap
          tracker := { (s.lane l).tracker with records := withoutTag tag (s.lane l).tracker.records }
          run := { (s.lane l).run with state := .running, stallTimer := 0 } } ∧
        t.lamp l = .active ∧
        Forwarded .towardStation (.completion tag .good e) (s.link l) (t.link l) ∧ OthersKept l s t ∧
        SharedKept s t) ∧
    (kind = 4 → (s.lane l).run.state = .issued ∨ (s.lane l).run.state = .rejected →
      ∃ t, exec (.complete l tag .good e) s = .next t ∧
        t.lane l = { s.lane l with
          tap := { withSlot tag none (s.lane l).tap with reportReady := false }
          tracker := { (s.lane l).tracker with records := withoutTag tag (s.lane l).tracker.records }
          run := { (s.lane l).run with
            state := .idle, anchor := none, runId := none, plan := none, refusal := none, current := none,
            verdict := none, runClock := 0, stallTimer := 0, drainTimer := 0, held := .absent } } ∧
        t.lamp l = .ready ∧
        Forwarded .towardStation (.completion tag .good e) (s.link l) (t.link l) ∧ OthersKept l s t ∧
        SharedKept s t)

/-! ## After the close -/

/-- In CLOSING a command retires, whatever its status. A WRITE that touches the range with a stale stamp, or with an
in-range sector that is not in the good part and seen to match (the error sector, a sector of the tail, any sector
of an unplaced command, a mismatch, one not captured), makes the outcome FAILED with reason LATE_WRITE, and so does
a DISCARD that touches the range. Any other command leaves the verdict. Credit and defects stand, and an ERROR is
tallied as MEDIUM_ERROR (R33, R36, R133). Where it was the last record, CLOSING ends: the certificate carries that
verdict and those tallies, with the map's counts in the record of the pass open at the close, and the lane's request
goes to the store (R135, R136, R137). -/
def Obligations.LateWriteFailsRun : Prop :=
  ∀ (l : LaneId) (tag : Tag) (status : Status) (e : Option Nat) (r : Record) (s : State), Sound s →
    s.takesEvents l = true → (s.lane l).run.state = .closing → ReadyToRetire r (s.lane l) → r.tag = tag →
    ((∃ q ∈ (s.lane l).tracker.records, q.tag ≠ tag) →
      ∃ t, exec (.complete l tag status e) s = .next t ∧
        t.lane l = { s.lane l with
          tap := withSlot tag none (s.lane l).tap
          tracker := { (s.lane l).tracker with records := withoutTag tag (s.lane l).tracker.records }
          run := { (s.lane l).run with
            verdict := (t.lane l).run.verdict
            tallies := match status with
              | .good => (s.lane l).run.tallies
              | .error => tallied 2 (s.lane l).run.tallies } } ∧
        LateVerdict status e r (s.lane l) (t.lane l).run.verdict ∧
        Forwarded .towardStation (.completion tag status e) (s.link l) (t.link l) ∧ OthersKept l s t ∧
        SharedKept s t) ∧
    ((∀ q ∈ (s.lane l).tracker.records, q.tag = tag) →
      ∃ t c, exec (.complete l tag status e) s = .next t ∧ AsksStore l c s t ∧
        LateVerdict status e r (s.lane l) (some c.verdict) ∧
        c.tallies = (match status with
          | .good => (s.lane l).run.tallies
          | .error => tallied 2 (s.lane l).run.tallies) ∧
        (t.lane l).run.tallies = c.tallies ∧
        (t.lane l).tracker = { (s.lane l).tracker with records := [] } ∧
        (t.lane l).coverage = (s.lane l).coverage ∧ (t.lane l).defects = (s.lane l).defects ∧
        (t.lane l).latch = (s.lane l).latch ∧ t.pool = s.pool ∧ t.engine = s.engine ∧
        Forwarded .towardStation (.completion tag status e) (s.link l) (t.link l) ∧ OthersKept l s t ∧
        t.pending = s.pending)

/-- A command that retires outside a run, and acts by no marker: it ends in ERROR, or retires in ISSUING, or carries
no PLAN, and no RELEASE at the anchor (R38, R75, R79). In ISSUED a WRITE or DISCARD that touches the range voids the
certificate: FAILED with reason POST_WRITE, every other field kept, the report-ready flag set again and the lamp
FAIL. In ISSUING it voids the pending certificate, whose request keeps its place. Nothing is asked of the store
(R37, R138, R139, R171). Every other command there, a READ, a FLUSH, a WRITE or DISCARD outside the range, and every
command in IDLE and REJECTED, leaves credit, defects, run and report as they were. An ERROR has its MEDIUM_ERROR
tallied in all these cases, and nothing more (R33, R37, R140, R148). -/
def Obligations.WriteAfterIssueVoids : Prop :=
  ∀ (l : LaneId) (tag : Tag) (status : Status) (e : Option Nat) (r : Record) (s : State), Sound s →
    s.takesEvents l = true → ReadyToRetire r (s.lane l) → r.tag = tag →
    ActsByNoMarker status r (s.lane l) →
    (∀ c : Certificate, TouchesRange r (s.lane l) → (s.lane l).run.state = .issued →
      (s.lane l).run.held = .certificate c →
      ∃ t, exec (.complete l tag status e) s = .next t ∧
        (t.lane l).run = { (s.lane l).run with
          verdict := some ⟨.failed, .postWrite⟩
          held := .certificate { c with verdict := ⟨.failed, .postWrite⟩ }
          tallies := match status with
            | .good => (s.lane l).run.tallies
            | .error => tallied 2 (s.lane l).run.tallies } ∧
        (t.lane l).tap = { withSlot tag none (s.lane l).tap with reportReady := true } ∧
        (t.lane l).coverage = (s.lane l).coverage ∧ (t.lane l).defects = (s.lane l).defects ∧
        (t.lane l).tracker = { (s.lane l).tracker with
          records := withoutTag tag (s.lane l).tracker.records } ∧
        (t.lane l).capture = (s.lane l).capture ∧ (t.lane l).latch = (s.lane l).latch ∧
        t.lamp l = .fail ∧ t.alertAsserted = true ∧
        Forwarded .towardStation (.completion tag status e) (s.link l) (t.link l) ∧ OthersKept l s t ∧
        SharedKept s t) ∧
    (∀ c : Certificate, TouchesRange r (s.lane l) → (s.lane l).run.state = .issuing →
      (s.lane l).run.held = .pending c →
      ∃ t, exec (.complete l tag status e) s = .next t ∧
        (t.lane l).run = { (s.lane l).run with
          verdict := some ⟨.failed, .postWrite⟩
          held := .pending { c with verdict := ⟨.failed, .postWrite⟩ }
          tallies := match status with
            | .good => (s.lane l).run.tallies
            | .error => tallied 2 (s.lane l).run.tallies } ∧
        (t.lane l).tap = withSlot tag none (s.lane l).tap ∧
        (t.lane l).coverage = (s.lane l).coverage ∧ (t.lane l).defects = (s.lane l).defects ∧
        (t.lane l).tracker = { (s.lane l).tracker with
          records := withoutTag tag (s.lane l).tracker.records } ∧
        (t.lane l).capture = (s.lane l).capture ∧ (t.lane l).latch = (s.lane l).latch ∧
        Forwarded .towardStation (.completion tag status e) (s.link l) (t.link l) ∧ OthersKept l s t ∧
        SharedKept s t) ∧
    ((s.lane l).run.state = .idle ∨ (s.lane l).run.state = .rejected ∨
        (((s.lane l).run.state = .issuing ∨ (s.lane l).run.state = .issued) ∧ ¬ TouchesRange r (s.lane l)) →
      ∃ t, exec (.complete l tag status e) s = .next t ∧
        t.lane l = { s.lane l with
          tap := withSlot tag none (s.lane l).tap
          tracker := { (s.lane l).tracker with records := withoutTag tag (s.lane l).tracker.records }
          run := { (s.lane l).run with
            tallies := match status with
              | .good => (s.lane l).run.tallies
              | .error => tallied 2 (s.lane l).run.tallies } } ∧
        Forwarded .towardStation (.completion tag status e) (s.link l) (t.link l) ∧ OthersKept l s t ∧
        SharedKept s t)

/-! ## The map, samples, completeness and expected content -/

/-- A credit removal leaves a map in its form. Every sector of the set becomes untouched. Where the exact cut fits
64 extents no other sector changes. Otherwise exactly the extents that the cut would split are removed whole, and no
other sector outside the set changes (R98, R99). -/
def Obligations.RemovalKeepsCapacity : Prop :=
  ∀ (m : List Extent) (sectors : List Nat), MapForm m → sectors.Pairwise (· < ·) →
    MapForm (removeCredit sectors m) ∧
    (∀ a ∈ sectors, conditionOf (removeCredit sectors m) a = none) ∧
    ((cutSpans (spansOf sectors) m).length ≤ 64 →
      ∀ a, a ∉ sectors → conditionOf (removeCredit sectors m) a = conditionOf m a) ∧
    (64 < (cutSpans (spansOf sectors) m).length →
      ∀ x ∈ m,
        ((∃ lo mid hi, x.contains lo = true ∧ x.contains hi = true ∧ lo < mid ∧ mid < hi ∧
          mid ∈ sectors ∧ lo ∉ sectors ∧ hi ∉ sectors) →
          ∀ a, x.contains a = true → conditionOf (removeCredit sectors m) a = none) ∧
        (¬ (∃ lo mid hi, x.contains lo = true ∧ x.contains hi = true ∧ lo < mid ∧ mid < hi ∧
          mid ∈ sectors ∧ lo ∉ sectors ∧ hi ∉ sectors) →
          ∀ a, x.contains a = true → a ∉ sectors →
            conditionOf (removeCredit sectors m) a = some x.credit)) ∧
    ∀ a, conditionOf m a = none → conditionOf (removeCredit sectors m) a = none

/-- The completeness test says what it should: the current pass is complete exactly when nothing is unlisted and
every sector of the target range is listed, or held at the strength its verify mode asks for: VERIFIED under FULL,
WRITTEN or VERIFIED under NONE, and under SAMPLED WRITTEN or VERIFIED, with every sample VERIFIED (R117, R119,
R120). And the test acts at the retirement that completes the pass, here a matched WRITE of all the sectors still
open, under verify mode NONE (R121): below the pass count the pass advances, its record complete with the map's
counts and the clock, the map cleared and the next pass entered at attempt 1 (R129, R130). At the last pass the run
closes CLEAN, EXCEPTIONS or FAILED by the defect total and the allowance (R131, R132). -/
def Obligations.CompletenessMeansEverySector : Prop :=
  (∀ (x : Lane) (p : Plan) (k : Stamp) (d : PassDef), LaneLaw x → x.run.plan = some p → p.first ≤ p.last →
    x.run.current = some k → p.passes[k.pass - 1]? = some d →
    (d.verify = .sampled → 2 ≤ d.stride ∧ d.phase < d.stride) →
    (x.complete = true ↔ x.defects.unlisted = 0 ∧ ∀ a, p.first ≤ a → a ≤ p.last →
      x.defects.lists a = true ∨
      match d.verify with
      | .none => CountsAsWritten (conditionOf x.coverage.extents a)
      | .full => conditionOf x.coverage.extents a = some .verified
      | .sampled => CountsAsWritten (conditionOf x.coverage.extents a) ∧
        ((a - p.first) % d.stride = d.phase ∨ a = p.first ∨ a = p.last →
          conditionOf x.coverage.extents a = some .verified))) ∧
  (∀ (l : LaneId) (tag : Tag) (start count : Nat) (e : Option Nat) (r : Record) (p : Plan) (k : Stamp)
    (d : PassDef) (s : State), Sound s → s.takesEvents l = true → (s.lane l).run.state = .running →
    (s.lane l).run.plan = some p → (s.lane l).run.current = some k → p.passes[k.pass - 1]? = some d →
    d.verify = .none → p.flush = false → ReadyToRetire r (s.lane l) → r.tag = tag →
    r.operation = .write start count → r.stamp = some k → r.marker = none → 1 ≤ count →
    (∀ x ∈ r.entries, x = .compared .matched) → p.first ≤ start → start + count ≤ p.last + 1 →
    (∀ a, Addresses r.operation a → (s.lane l).defects.lists a = false) →
    (s.lane l).coverage.extents.length ≤ 62 → (s.lane l).defects.unlisted = 0 →
    (∃ a, Addresses r.operation a ∧ ¬ CountsAsWritten (conditionOf (s.lane l).coverage.extents a)) →
    (∀ a, p.first ≤ a → a ≤ p.last → ¬ Addresses r.operation a →
      CountsAsWritten (conditionOf (s.lane l).coverage.extents a) ∨ (s.lane l).defects.lists a = true) →
    ∃ t, exec (.complete l tag .good e) s = .next t ∧
      (∀ i : Fin 4, i.val + 1 = k.pass → (t.lane l).run.passRecords[i.val] =
        { (s.lane l).run.passRecords[i.val] with
          status := .complete
          written := p.last + 1 - p.first - (s.lane l).defects.total
          verified := (List.range' p.first (p.last + 1 - p.first)).countP (fun a =>
            decide (¬ Addresses r.operation a) &&
              decide (conditionOf (s.lane l).coverage.extents a = some .verified))
          seconds := (s.lane l).run.runClock }) ∧
      (k.pass < p.passes.length →
        (t.lane l).run = { (s.lane l).run with
          current := some ⟨k.pass + 1, 1⟩
          passRecords := (t.lane l).run.passRecords
          stallTimer := 0 } ∧
        (∀ i : Fin 4, i.val + 1 ≠ k.pass → (t.lane l).run.passRecords[i.val] =
          if i.val = k.pass then
            { (s.lane l).run.passRecords[i.val] with status := .incomplete, attempts := 1 }
          else (s.lane l).run.passRecords[i.val]) ∧
        (t.lane l).coverage = { (s.lane l).coverage with extents := [] } ∧
        (t.lane l).tap = withSlot tag none (s.lane l).tap ∧ (t.lane l).capture = (s.lane l).capture ∧
        t.store = s.store) ∧
      (k.pass = p.passes.length →
        ClosedWith (if (s.lane l).defects.total = 0 then ⟨.clean, .none⟩
          else if (s.lane l).defects.total ≤ p.allowance then ⟨.exceptions, .none⟩
          else ⟨.failed, .fault .defectOverrun⟩) (t.lane l) ∧
        (∀ i : Fin 4, i.val + 1 ≠ k.pass →
          (t.lane l).run.passRecords[i.val] = (s.lane l).run.passRecords[i.val]) ∧
        (t.lane l).run.current = some k ∧ (t.lane l).run.stallTimer = 0 ∧
        (t.lane l).run.runClock = (s.lane l).run.runClock ∧
        (t.lane l).run.tallies = (s.lane l).run.tallies ∧
        (t.lane l).coverage.uncredited = (s.lane l).coverage.uncredited ∧
        ∀ a, conditionOf (t.lane l).coverage.extents a =
          if Addresses r.operation a then some .written else conditionOf (s.lane l).coverage.extents a) ∧
      (t.lane l).tracker = { (s.lane l).tracker with
        records := withoutTag tag (s.lane l).tracker.records } ∧
      (t.lane l).defects = (s.lane l).defects ∧ (t.lane l).latch = (s.lane l).latch ∧
      t.pool = s.pool ∧ t.engine = s.engine ∧ t.pending = s.pending ∧
      Forwarded .towardStation (.completion tag .good e) (s.link l) (t.link l) ∧ OthersKept l s t)

/-- Offset j is a sample when j mod s = φ, j = 0 or j = N − 1, and a sample is counted once however it is reached.
The total T is the number of samples in [0, N − 1], at least 1, 1 when N = 1 and at least 2 when N is 2 or more
(R117). The count of samples in [u, v], worked from u and v alone, is the number of samples there (R118). -/
def Obligations.SampleCountIsExact : Prop :=
  ∀ stride phase n u v : Nat, 2 ≤ stride → phase < stride → u ≤ v → v < n →
    sampleCount stride phase n u v =
      ((List.range n).filter (fun j => decide (u ≤ j) && decide (j ≤ v) &&
        (decide (j % stride = phase) || decide (j = 0) || decide (j + 1 = n)))).length ∧
    totalSamples stride phase n =
      ((List.range n).filter (fun j =>
        decide (j % stride = phase) || decide (j = 0) || decide (j + 1 = n))).length ∧
    1 ≤ totalSamples stride phase n ∧ (n = 1 → totalSamples stride phase n = 1) ∧
    (2 ≤ n → 2 ≤ totalSamples stride phase n)

/-- Expected content e(p, L, k) by pattern kind. FILL: the fill value. PAIR: the first operand where k + L is even,
else the second. STREAM: word 0 from the start value S + 40503 × L mod 2^32, each word v followed by v × 69069 + 1
mod 2^32. INVERT: 4294967295 less the word of the pass before it (R64, R65, R66, R67, R68). -/
def Obligations.ExpectedContentOfKinds : Prop :=
  ∀ (passes : List PassDef) (p lba k : Nat) (d : PassDef), 1 ≤ p → passes[p - 1]? = some d →
    (d.kind = .fill → expectedWord passes p lba k = some d.operand1) ∧
    (d.kind = .pair → expectedWord passes p lba k =
      some (if (k + lba) % 2 = 0 then d.operand1 else d.operand2)) ∧
    (d.kind = .stream →
      expectedWord passes p lba 0 = some (BitVec.ofNat 32
        ((d.operand1.toNat + 40503 * lba) % 4294967296 * 69069 + 1)) ∧
      ∀ v, expectedWord passes p lba k = some v →
        expectedWord passes p lba (k + 1) = some (BitVec.ofNat 32 (v.toNat * 69069 + 1))) ∧
    (d.kind = .invert → expectedWord passes p lba k =
      (expectedWord passes (p - 1) lba k).map (fun v => BitVec.ofNat 32 (4294967295 - v.toNat)))

/-- A plan that passes its tests has expected content for every pass, sector and word: every chain of INVERT passes
ends (R68, R81). -/
def Obligations.AcceptedPlanHasContent : Prop :=
  ∀ (size : SectorSize) (w : List Word), planFailure true size w = none →
    ∀ p lba k, 1 ≤ p → p ≤ (decodePlan size w).passes.length →
      (expectedWord (decodePlan size w).passes p lba k).isSome = true

/-! ## What every step keeps -/

/-- Credit comes only from seen data: in one step a sector gains credit only on a RUNNING lane, in range, unlisted,
and addressed by a pending WRITE with the current stamp whose data for it matched, or matches in the job that
completes (R29, R93). -/
def Obligations.CreditOnlyForMatchingData : Prop :=
  ∀ (s t : State) (l : LaneId) (a : Nat), Sound s → step s = .next t →
    conditionOf (s.lane l).coverage.extents a = none → conditionOf (t.lane l).coverage.extents a ≠ none →
    (s.lane l).run.state = .running ∧ InTarget (s.lane l) a ∧ (s.lane l).defects.lists a = false ∧
    ∃ r ∈ (s.lane l).tracker.records, r.operation.isWrite = true ∧ r.stamp = (s.lane l).run.current ∧
      Addresses r.operation a ∧
      ((∃ x, r.entries[a - r.operation.start]? = some x ∧ saysMatch x = true) ∨
        ∃ f ∈ s.engine.inFlight, f.lane = l ∧ f.discard = false ∧ f.job.tag = r.tag ∧
          f.job.index = a - r.operation.start ∧ ¬ Differs f)

/-- A sector becomes VERIFIED only from WRITTEN, on a RUNNING lane, by a pending READ with the current stamp that
addresses it and whose data for it matched, or matches in the job that completes (R32, R96). -/
def Obligations.VerifiedOnlyByReadBack : Prop :=
  ∀ (s t : State) (l : LaneId) (a : Nat), Sound s → step s = .next t →
    conditionOf (s.lane l).coverage.extents a ≠ some .verified →
    conditionOf (t.lane l).coverage.extents a = some .verified →
    conditionOf (s.lane l).coverage.extents a = some .written ∧ (s.lane l).run.state = .running ∧
    ∃ r ∈ (s.lane l).tracker.records, isRead r.operation = true ∧ r.stamp = (s.lane l).run.current ∧
      Addresses r.operation a ∧
      ((∃ x, r.entries[a - r.operation.start]? = some x ∧ saysMatch x = true) ∨
        ∃ f ∈ s.engine.inFlight, f.lane = l ∧ f.discard = false ∧ f.job.tag = r.tag ∧
          f.job.index = a - r.operation.start ∧ ¬ Differs f)

/-- Every step keeps the law of conservation of buffers, the waiting list's law and the grant's (R42, R43, R46, R47,
R48, R53). -/
def Obligations.StepKeepsPool : Prop :=
  ∀ s t : State, Sound s → step s = .next t → PoolLaw t

/-- Every step keeps every lane's table and the match of PENDING entries with jobs (R18, R23, R24, R26, R44). -/
def Obligations.StepKeepsTablesAndJobs : Prop :=
  ∀ s t : State, Sound s → step s = .next t → ∀ l : LaneId, TableLaw (t.lane l).tracker ∧ JobLaw t l

/-- Every step keeps every lane's map and defect list: their forms, the range, the epochs, and no sector in both
(R88, R89, R90, R100, R109, R112, R114). -/
def Obligations.StepKeepsMapsAndDefects : Prop :=
  ∀ s t : State, Sound s → step s = .next t → ∀ l : LaneId, MapLaw (t.lane l) ∧ DefectLaw (t.lane l)

/-- Every step keeps every lane's run, queue and presence laws (R44, R49, R50, R123, R130, R134, R135, R142). One of
them is that no timer of a run stands at its limit: it has expired. -/
def Obligations.StepKeepsRuns : Prop :=
  ∀ s t : State, Sound s → step s = .next t → ∀ l : LaneId,
    RunLaw (t.lane l) ∧ QueueLaw (t.lane l) ∧ PresenceLaw (t.lane l)

/-- Every step keeps the claims of verdicts and certificates: a CLEAN or EXCEPTIONS verdict has every pass complete,
nothing unlisted and the total within the allowance, and a certificate says what its lane says (R131, R136, R138,
R139). -/
def Obligations.StepKeepsCertificates : Prop :=
  ∀ s t : State, Sound s → step s = .next t → ∀ l : LaneId,
    VerdictLaw (t.lane l) ∧ CertificateLaw (t.lane l)

/-- Every step keeps the Issue Store's law, the stored number never decreases, and a certificate's number that was
not held before is above every number stored before (R160, R162, R163, R164, R166, R180). -/
def Obligations.StepKeepsIssueNumbers : Prop :=
  ∀ s t : State, Sound s → step s = .next t → IssueLaw t ∧ NumbersLaw t ∧
    s.store.storedNumber ≤ t.store.storedNumber ∧
    ∀ l : LaneId, issueNumberOf (t.lane l) = 0 ∨ issueNumberOf (t.lane l) = issueNumberOf (s.lane l) ∨
      s.store.storedNumber < issueNumberOf (t.lane l)
end

