-- ==== Sys2Proof/Laws/State.lean ====
section
/-! SUPPORT. One lemma per field per update of the state, each true by unfolding, so that no later proof unfolds a
record update. -/

namespace Sys2Proof.Machine

/-! ## The part -/

theorem State.lane_eq (s : State) (l : LaneId) : s.lane l = s.lanes[l.val] := rfl

/-- A lane read through the vector is the lane read by its name. -/
@[simp] theorem State.lanes_getElem (s : State) (l : LaneId) (h : l.val < 8) : s.lanes[l.val]'h = s.lane l := rfl

@[simp] theorem State.links_getElem (s : State) (l : LaneId) (h : l.val < 8) : s.links[l.val]'h = s.link l := rfl

@[simp] theorem State.lane_mk (p r : Bool) (xs : Vector Lane 8) (ks : Vector Link 8) (b : Pool) (e : Engine)
    (t : Store) (q : List Instr) (l : LaneId) : (State.mk p r xs ks b e t q).lane l = xs[l.val] := rfl

@[simp] theorem State.link_mk (p r : Bool) (xs : Vector Lane 8) (ks : Vector Link 8) (b : Pool) (e : Engine)
    (t : Store) (q : List Instr) (l : LaneId) : (State.mk p r xs ks b e t q).link l = ks[l.val] := rfl

@[simp] theorem State.setLane_lane_same (s : State) (l : LaneId) (x : Lane) : (s.setLane l x).lane l = x := by
  simp [State.setLane, State.lane_mk]

theorem State.setLane_lane (s : State) (l m : LaneId) (x : Lane) :
    (s.setLane l x).lane m = if l = m then x else s.lane m := by
  simp only [State.setLane, State.lane_mk, Vector.getElem_set, Fin.val_inj]
  rfl

@[simp] theorem State.setLane_lane_of_ne (s : State) {l m : LaneId} (x : Lane) (h : m ≠ l) :
    (s.setLane l x).lane m = s.lane m := by
  rw [State.setLane_lane, if_neg (Ne.symm h)]

@[simp] theorem State.modifyLane_lane_same (s : State) (l : LaneId) (f : Lane → Lane) :
    (s.modifyLane l f).lane l = f (s.lane l) := State.setLane_lane_same s l _

theorem State.modifyLane_lane (s : State) (l m : LaneId) (f : Lane → Lane) :
    (s.modifyLane l f).lane m = if l = m then f (s.lane m) else s.lane m := by
  rw [State.modifyLane, State.setLane_lane]
  split
  · next h => rw [h]
  · rfl

@[simp] theorem State.modifyLane_lane_of_ne (s : State) {l m : LaneId} (f : Lane → Lane) (h : m ≠ l) :
    (s.modifyLane l f).lane m = s.lane m := State.setLane_lane_of_ne s _ h

@[simp] theorem State.modifyLane_modifyLane (s : State) (l : LaneId) (f g : Lane → Lane) :
    (s.modifyLane l f).modifyLane l g = s.modifyLane l (fun x => g (f x)) := by
  rw [State.modifyLane, State.modifyLane_lane_same]
  simp [State.modifyLane, State.setLane]

@[simp] theorem State.setLane_powered (s : State) (l : LaneId) (x : Lane) : (s.setLane l x).powered = s.powered := rfl

@[simp] theorem State.setLane_inReset (s : State) (l : LaneId) (x : Lane) : (s.setLane l x).inReset = s.inReset := rfl

@[simp] theorem State.setLane_links (s : State) (l : LaneId) (x : Lane) : (s.setLane l x).links = s.links := rfl

@[simp] theorem State.setLane_pool (s : State) (l : LaneId) (x : Lane) : (s.setLane l x).pool = s.pool := rfl

@[simp] theorem State.setLane_engine (s : State) (l : LaneId) (x : Lane) : (s.setLane l x).engine = s.engine := rfl

@[simp] theorem State.setLane_store (s : State) (l : LaneId) (x : Lane) : (s.setLane l x).store = s.store := rfl

@[simp] theorem State.setLane_pending (s : State) (l : LaneId) (x : Lane) : (s.setLane l x).pending = s.pending := rfl

@[simp] theorem State.setLane_link (s : State) (l : LaneId) (x : Lane) (m : LaneId) : (s.setLane l x).link m = s.link m := rfl

@[simp] theorem State.modifyLane_powered (s : State) (l : LaneId) (f : Lane → Lane) : (s.modifyLane l f).powered = s.powered := rfl

@[simp] theorem State.modifyLane_inReset (s : State) (l : LaneId) (f : Lane → Lane) : (s.modifyLane l f).inReset = s.inReset := rfl

@[simp] theorem State.modifyLane_links (s : State) (l : LaneId) (f : Lane → Lane) : (s.modifyLane l f).links = s.links := rfl

@[simp] theorem State.modifyLane_pool (s : State) (l : LaneId) (f : Lane → Lane) : (s.modifyLane l f).pool = s.pool := rfl

@[simp] theorem State.modifyLane_engine (s : State) (l : LaneId) (f : Lane → Lane) : (s.modifyLane l f).engine = s.engine := rfl

@[simp] theorem State.modifyLane_store (s : State) (l : LaneId) (f : Lane → Lane) : (s.modifyLane l f).store = s.store := rfl

@[simp] theorem State.modifyLane_pending (s : State) (l : LaneId) (f : Lane → Lane) : (s.modifyLane l f).pending = s.pending := rfl

@[simp] theorem State.modifyLane_link (s : State) (l : LaneId) (f : Lane → Lane) (m : LaneId) : (s.modifyLane l f).link m = s.link m := rfl

@[simp] theorem State.forward_powered (s : State) (l : LaneId) (d : Direction) (t : Traffic) :
    (s.forward l d t).powered = s.powered := by cases d <;> rfl

@[simp] theorem State.forward_inReset (s : State) (l : LaneId) (d : Direction) (t : Traffic) :
    (s.forward l d t).inReset = s.inReset := by cases d <;> rfl

@[simp] theorem State.forward_lanes (s : State) (l : LaneId) (d : Direction) (t : Traffic) :
    (s.forward l d t).lanes = s.lanes := by cases d <;> rfl

@[simp] theorem State.forward_pool (s : State) (l : LaneId) (d : Direction) (t : Traffic) :
    (s.forward l d t).pool = s.pool := by cases d <;> rfl

@[simp] theorem State.forward_engine (s : State) (l : LaneId) (d : Direction) (t : Traffic) :
    (s.forward l d t).engine = s.engine := by cases d <;> rfl

@[simp] theorem State.forward_store (s : State) (l : LaneId) (d : Direction) (t : Traffic) :
    (s.forward l d t).store = s.store := by cases d <;> rfl

@[simp] theorem State.forward_pending (s : State) (l : LaneId) (d : Direction) (t : Traffic) :
    (s.forward l d t).pending = s.pending := by cases d <;> rfl

@[simp] theorem State.forward_lane (s : State) (l m : LaneId) (d : Direction) (t : Traffic) :
    (s.forward l d t).lane m = s.lane m := by cases d <;> rfl

@[simp] theorem State.forward_link_of_ne (s : State) {l m : LaneId} (d : Direction) (t : Traffic) (h : m ≠ l) :
    (s.forward l d t).link m = s.link m := by
  have h' : ¬ l.val = m.val := fun e => h (Fin.ext e.symm)
  cases d <;> simp [State.forward, h']

@[simp] theorem State.forward_link_towardDrive (s : State) (l : LaneId) (t : Traffic) :
    (s.forward l .towardDrive t).link l = { s.link l with toDrive := (s.link l).toDrive ++ [t] } := by
  simp [State.forward]

@[simp] theorem State.forward_link_towardStation (s : State) (l : LaneId) (t : Traffic) :
    (s.forward l .towardStation t).link l = { s.link l with toStation := (s.link l).toStation ++ [t] } := by
  simp [State.forward]

@[simp] theorem State.countSecond_powered (s : State) : s.countSecond.powered = s.powered := rfl

@[simp] theorem State.countSecond_inReset (s : State) : s.countSecond.inReset = s.inReset := rfl

@[simp] theorem State.countSecond_links (s : State) : s.countSecond.links = s.links := rfl

@[simp] theorem State.countSecond_pool (s : State) : s.countSecond.pool = s.pool := rfl

@[simp] theorem State.countSecond_engine (s : State) : s.countSecond.engine = s.engine := rfl

@[simp] theorem State.countSecond_store (s : State) : s.countSecond.store = s.store := rfl

@[simp] theorem State.countSecond_pending (s : State) : s.countSecond.pending = s.pending := rfl

@[simp] theorem State.countSecond_lane (s : State) (l : LaneId) :
    s.countSecond.lane l = (s.lane l).countSecond := by
  simp [State.countSecond]

@[simp] theorem State.restartBlocks_powered (s : State) : s.restartBlocks.powered = s.powered := rfl

@[simp] theorem State.restartBlocks_inReset (s : State) : s.restartBlocks.inReset = s.inReset := rfl

@[simp] theorem State.restartBlocks_links (s : State) : s.restartBlocks.links = s.links := rfl

@[simp] theorem State.restartBlocks_store (s : State) : s.restartBlocks.store = s.store := rfl

@[simp] theorem State.restartBlocks_pending (s : State) : s.restartBlocks.pending = s.pending := rfl

@[simp] theorem State.restartBlocks_pool (s : State) : s.restartBlocks.pool = .initial := rfl

@[simp] theorem State.restartBlocks_engine (s : State) : s.restartBlocks.engine = .initial := rfl

@[simp] theorem State.restartBlocks_lane (s : State) (l : LaneId) : s.restartBlocks.lane l = .initial := by
  simp [State.restartBlocks]

@[simp] theorem State.setLane_takesEvents_of_ne (s : State) {l m : LaneId} (x : Lane) (h : m ≠ l) :
    (s.setLane l x).takesEvents m = s.takesEvents m := by
  simp [State.takesEvents, State.listening, h]

/-! ## One lane -/

@[simp] theorem Lane.modifyTap_tap (x : Lane) (f : Tap → Tap) : (x.modifyTap f).tap = f x.tap := rfl

@[simp] theorem Lane.modifyTap_tracker (x : Lane) (f : Tap → Tap) : (x.modifyTap f).tracker = x.tracker := rfl

@[simp] theorem Lane.modifyTap_capture (x : Lane) (f : Tap → Tap) : (x.modifyTap f).capture = x.capture := rfl

@[simp] theorem Lane.modifyTap_coverage (x : Lane) (f : Tap → Tap) : (x.modifyTap f).coverage = x.coverage := rfl

@[simp] theorem Lane.modifyTap_defects (x : Lane) (f : Tap → Tap) : (x.modifyTap f).defects = x.defects := rfl

@[simp] theorem Lane.modifyTap_run (x : Lane) (f : Tap → Tap) : (x.modifyTap f).run = x.run := rfl

@[simp] theorem Lane.modifyTap_latch (x : Lane) (f : Tap → Tap) : (x.modifyTap f).latch = x.latch := rfl

@[simp] theorem Lane.modifyTracker_tap (x : Lane) (f : Tracker → Tracker) : (x.modifyTracker f).tap = x.tap := rfl

@[simp] theorem Lane.modifyTracker_tracker (x : Lane) (f : Tracker → Tracker) : (x.modifyTracker f).tracker = f x.tracker := rfl

@[simp] theorem Lane.modifyTracker_capture (x : Lane) (f : Tracker → Tracker) : (x.modifyTracker f).capture = x.capture := rfl

@[simp] theorem Lane.modifyTracker_coverage (x : Lane) (f : Tracker → Tracker) : (x.modifyTracker f).coverage = x.coverage := rfl

@[simp] theorem Lane.modifyTracker_defects (x : Lane) (f : Tracker → Tracker) : (x.modifyTracker f).defects = x.defects := rfl

@[simp] theorem Lane.modifyTracker_run (x : Lane) (f : Tracker → Tracker) : (x.modifyTracker f).run = x.run := rfl

@[simp] theorem Lane.modifyTracker_latch (x : Lane) (f : Tracker → Tracker) : (x.modifyTracker f).latch = x.latch := rfl

@[simp] theorem Lane.modifyCapture_tap (x : Lane) (f : Capture → Capture) : (x.modifyCapture f).tap = x.tap := rfl

@[simp] theorem Lane.modifyCapture_tracker (x : Lane) (f : Capture → Capture) : (x.modifyCapture f).tracker = x.tracker := rfl

@[simp] theorem Lane.modifyCapture_capture (x : Lane) (f : Capture → Capture) : (x.modifyCapture f).capture = f x.capture := rfl

@[simp] theorem Lane.modifyCapture_coverage (x : Lane) (f : Capture → Capture) : (x.modifyCapture f).coverage = x.coverage := rfl

@[simp] theorem Lane.modifyCapture_defects (x : Lane) (f : Capture → Capture) : (x.modifyCapture f).defects = x.defects := rfl

@[simp] theorem Lane.modifyCapture_run (x : Lane) (f : Capture → Capture) : (x.modifyCapture f).run = x.run := rfl

@[simp] theorem Lane.modifyCapture_latch (x : Lane) (f : Capture → Capture) : (x.modifyCapture f).latch = x.latch := rfl

@[simp] theorem Lane.modifyRun_tap (x : Lane) (f : RunControl → RunControl) : (x.modifyRun f).tap = x.tap := rfl

@[simp] theorem Lane.modifyRun_tracker (x : Lane) (f : RunControl → RunControl) : (x.modifyRun f).tracker = x.tracker := rfl

@[simp] theorem Lane.modifyRun_capture (x : Lane) (f : RunControl → RunControl) : (x.modifyRun f).capture = x.capture := rfl

@[simp] theorem Lane.modifyRun_coverage (x : Lane) (f : RunControl → RunControl) : (x.modifyRun f).coverage = x.coverage := rfl

@[simp] theorem Lane.modifyRun_defects (x : Lane) (f : RunControl → RunControl) : (x.modifyRun f).defects = x.defects := rfl

@[simp] theorem Lane.modifyRun_run (x : Lane) (f : RunControl → RunControl) : (x.modifyRun f).run = f x.run := rfl

@[simp] theorem Lane.modifyRun_latch (x : Lane) (f : RunControl → RunControl) : (x.modifyRun f).latch = x.latch := rfl

@[simp] theorem Lane.setSlot_tracker (tag : Tag) (slot : Option ReadSlot) (x : Lane) :
    (x.setSlot tag slot).tracker = x.tracker := rfl

@[simp] theorem Lane.setSlot_capture (tag : Tag) (slot : Option ReadSlot) (x : Lane) :
    (x.setSlot tag slot).capture = x.capture := rfl

@[simp] theorem Lane.setSlot_coverage (tag : Tag) (slot : Option ReadSlot) (x : Lane) :
    (x.setSlot tag slot).coverage = x.coverage := rfl

@[simp] theorem Lane.setSlot_defects (tag : Tag) (slot : Option ReadSlot) (x : Lane) :
    (x.setSlot tag slot).defects = x.defects := rfl

@[simp] theorem Lane.setSlot_run (tag : Tag) (slot : Option ReadSlot) (x : Lane) :
    (x.setSlot tag slot).run = x.run := rfl

@[simp] theorem Lane.setSlot_latch (tag : Tag) (slot : Option ReadSlot) (x : Lane) :
    (x.setSlot tag slot).latch = x.latch := rfl

@[simp] theorem Lane.setSlot_tap_sectorSize (tag : Tag) (slot : Option ReadSlot) (x : Lane) :
    (x.setSlot tag slot).tap.sectorSize = x.tap.sectorSize := rfl

@[simp] theorem Lane.setSlot_tap_trigger (tag : Tag) (slot : Option ReadSlot) (x : Lane) :
    (x.setSlot tag slot).tap.trigger = x.tap.trigger := rfl

@[simp] theorem Lane.setSlot_tap_poolReason (tag : Tag) (slot : Option ReadSlot) (x : Lane) :
    (x.setSlot tag slot).tap.poolReason = x.tap.poolReason := rfl

@[simp] theorem Lane.setSlot_tap_waiting (tag : Tag) (slot : Option ReadSlot) (x : Lane) :
    (x.setSlot tag slot).tap.waiting = x.tap.waiting := rfl

@[simp] theorem Lane.setSlot_tap_reportReady (tag : Tag) (slot : Option ReadSlot) (x : Lane) :
    (x.setSlot tag slot).tap.reportReady = x.tap.reportReady := rfl

@[simp] theorem Lane.setSlot_tap_crossing (tag : Tag) (slot : Option ReadSlot) (x : Lane) :
    (x.setSlot tag slot).tap.crossing = x.tap.crossing := rfl

@[simp] theorem Lane.setSlot_tap_readTable (tag : Tag) (slot : Option ReadSlot) (x : Lane) :
    (x.setSlot tag slot).tap.readTable = x.tap.readTable.set tag.val slot := rfl

@[simp] theorem Lane.countSecond_tap (x : Lane) : x.countSecond.tap = x.tap := rfl

@[simp] theorem Lane.countSecond_tracker (x : Lane) : x.countSecond.tracker = x.tracker := rfl

@[simp] theorem Lane.countSecond_capture (x : Lane) : x.countSecond.capture = x.capture := rfl

@[simp] theorem Lane.countSecond_coverage (x : Lane) : x.countSecond.coverage = x.coverage := rfl

@[simp] theorem Lane.countSecond_defects (x : Lane) : x.countSecond.defects = x.defects := rfl

@[simp] theorem Lane.countSecond_latch (x : Lane) : x.countSecond.latch = x.latch := rfl

@[simp] theorem Lane.countSecond_run_state (x : Lane) : x.countSecond.run.state = x.run.state := rfl

@[simp] theorem Lane.countSecond_run_anchor (x : Lane) : x.countSecond.run.anchor = x.run.anchor := rfl

@[simp] theorem Lane.countSecond_run_runId (x : Lane) : x.countSecond.run.runId = x.run.runId := rfl

@[simp] theorem Lane.countSecond_run_plan (x : Lane) : x.countSecond.run.plan = x.run.plan := rfl

@[simp] theorem Lane.countSecond_run_refusal (x : Lane) : x.countSecond.run.refusal = x.run.refusal := rfl

@[simp] theorem Lane.countSecond_run_current (x : Lane) : x.countSecond.run.current = x.run.current := rfl

@[simp] theorem Lane.countSecond_run_passRecords (x : Lane) : x.countSecond.run.passRecords = x.run.passRecords := rfl

@[simp] theorem Lane.countSecond_run_verdict (x : Lane) : x.countSecond.run.verdict = x.run.verdict := rfl

@[simp] theorem Lane.countSecond_run_stale (x : Lane) : x.countSecond.run.stale = x.run.stale := rfl

@[simp] theorem Lane.countSecond_run_held (x : Lane) : x.countSecond.run.held = x.run.held := rfl

@[simp] theorem Lane.countSecond_run_tallies (x : Lane) : x.countSecond.run.tallies = x.run.tallies := rfl

@[simp] theorem Lane.countSecond_run_firstFault (x : Lane) : x.countSecond.run.firstFault = x.run.firstFault := rfl

@[simp] theorem Lane.close_tap (v : Verdict) (x : Lane) : (x.close v).tap = x.tap := rfl

@[simp] theorem Lane.close_tracker (v : Verdict) (x : Lane) : (x.close v).tracker = x.tracker := rfl

@[simp] theorem Lane.close_capture (v : Verdict) (x : Lane) : (x.close v).capture = x.capture := rfl

@[simp] theorem Lane.close_coverage (v : Verdict) (x : Lane) : (x.close v).coverage = x.coverage := rfl

@[simp] theorem Lane.close_defects (v : Verdict) (x : Lane) : (x.close v).defects = x.defects := rfl

@[simp] theorem Lane.close_latch (v : Verdict) (x : Lane) : (x.close v).latch = x.latch := rfl

@[simp] theorem Lane.restart_tap (t : Stamp) (x : Lane) : (x.restart t).tap = x.tap := rfl

@[simp] theorem Lane.restart_tracker (t : Stamp) (x : Lane) : (x.restart t).tracker = x.tracker := rfl

@[simp] theorem Lane.restart_capture (t : Stamp) (x : Lane) : (x.restart t).capture = x.capture := rfl

@[simp] theorem Lane.restart_defects (t : Stamp) (x : Lane) : (x.restart t).defects = x.defects := rfl

@[simp] theorem Lane.restart_latch (t : Stamp) (x : Lane) : (x.restart t).latch = x.latch := rfl

@[simp] theorem Lane.failRun_tap (f : FaultClass) (x : Lane) : (x.failRun f).tap = x.tap := rfl

@[simp] theorem Lane.failRun_tracker (f : FaultClass) (x : Lane) : (x.failRun f).tracker = x.tracker := rfl

@[simp] theorem Lane.failRun_capture (f : FaultClass) (x : Lane) : (x.failRun f).capture = x.capture := rfl

@[simp] theorem Lane.failRun_coverage (f : FaultClass) (x : Lane) : (x.failRun f).coverage = x.coverage := rfl

@[simp] theorem Lane.failRun_defects (f : FaultClass) (x : Lane) : (x.failRun f).defects = x.defects := rfl

@[simp] theorem Lane.failRun_latch (f : FaultClass) (x : Lane) : (x.failRun f).latch = x.latch := rfl

@[simp] theorem Lane.restart_coverage (t : Stamp) (x : Lane) : (x.restart t).coverage = x.coverage.clear := rfl

@[simp] theorem Lane.advance_tap (x : Lane) : x.advance.tap = x.tap := rfl

@[simp] theorem Lane.advance_tracker (x : Lane) : x.advance.tracker = x.tracker := rfl

@[simp] theorem Lane.advance_capture (x : Lane) : x.advance.capture = x.capture := rfl

@[simp] theorem Lane.advance_defects (x : Lane) : x.advance.defects = x.defects := rfl

@[simp] theorem Lane.advance_latch (x : Lane) : x.advance.latch = x.latch := rfl

@[simp] theorem Lane.advance_coverage (x : Lane) : x.advance.coverage = x.coverage.clear := rfl

@[simp] theorem Lane.finish_tap (x : Lane) : x.finish.tap = x.tap := rfl

@[simp] theorem Lane.finish_tracker (x : Lane) : x.finish.tracker = x.tracker := rfl

@[simp] theorem Lane.finish_capture (x : Lane) : x.finish.capture = x.capture := rfl

@[simp] theorem Lane.finish_coverage (x : Lane) : x.finish.coverage = x.coverage := rfl

@[simp] theorem Lane.finish_defects (x : Lane) : x.finish.defects = x.defects := rfl

@[simp] theorem Lane.finish_latch (x : Lane) : x.finish.latch = x.latch := rfl

@[simp] theorem Lane.close_run_state (v : Verdict) (x : Lane) : (x.close v).run.state = .closing := rfl

@[simp] theorem Lane.close_run_anchor (v : Verdict) (x : Lane) : (x.close v).run.anchor = x.run.anchor := rfl

@[simp] theorem Lane.close_run_runId (v : Verdict) (x : Lane) : (x.close v).run.runId = x.run.runId := rfl

@[simp] theorem Lane.close_run_plan (v : Verdict) (x : Lane) : (x.close v).run.plan = x.run.plan := rfl

@[simp] theorem Lane.close_run_refusal (v : Verdict) (x : Lane) : (x.close v).run.refusal = x.run.refusal := rfl

@[simp] theorem Lane.close_run_current (v : Verdict) (x : Lane) : (x.close v).run.current = x.run.current := rfl

@[simp] theorem Lane.close_run_runClock (v : Verdict) (x : Lane) : (x.close v).run.runClock = x.run.runClock := rfl

@[simp] theorem Lane.close_run_stallTimer (v : Verdict) (x : Lane) : (x.close v).run.stallTimer = 0 := rfl

@[simp] theorem Lane.close_run_drainTimer (v : Verdict) (x : Lane) : (x.close v).run.drainTimer = 0 := rfl

@[simp] theorem Lane.close_run_verdict (v : Verdict) (x : Lane) : (x.close v).run.verdict = some v := rfl

@[simp] theorem Lane.close_run_stale (v : Verdict) (x : Lane) : (x.close v).run.stale = x.run.stale := rfl

@[simp] theorem Lane.close_run_held (v : Verdict) (x : Lane) : (x.close v).run.held = x.run.held := rfl

@[simp] theorem Lane.close_run_tallies (v : Verdict) (x : Lane) : (x.close v).run.tallies = x.run.tallies := rfl

@[simp] theorem Lane.close_run_firstFault (v : Verdict) (x : Lane) : (x.close v).run.firstFault = x.run.firstFault := rfl

@[simp] theorem Lane.restart_run_state (t : Stamp) (x : Lane) : (x.restart t).run.state = x.run.state := rfl

@[simp] theorem Lane.restart_run_anchor (t : Stamp) (x : Lane) : (x.restart t).run.anchor = x.run.anchor := rfl

@[simp] theorem Lane.restart_run_runId (t : Stamp) (x : Lane) : (x.restart t).run.runId = x.run.runId := rfl

@[simp] theorem Lane.restart_run_plan (t : Stamp) (x : Lane) : (x.restart t).run.plan = x.run.plan := rfl

@[simp] theorem Lane.restart_run_refusal (t : Stamp) (x : Lane) : (x.restart t).run.refusal = x.run.refusal := rfl

@[simp] theorem Lane.restart_run_current (t : Stamp) (x : Lane) : (x.restart t).run.current = some ⟨t.pass, t.attempt + 1⟩ := rfl

@[simp] theorem Lane.restart_run_runClock (t : Stamp) (x : Lane) : (x.restart t).run.runClock = x.run.runClock := rfl

@[simp] theorem Lane.restart_run_stallTimer (t : Stamp) (x : Lane) : (x.restart t).run.stallTimer = 0 := rfl

@[simp] theorem Lane.restart_run_drainTimer (t : Stamp) (x : Lane) : (x.restart t).run.drainTimer = x.run.drainTimer := rfl

@[simp] theorem Lane.restart_run_verdict (t : Stamp) (x : Lane) : (x.restart t).run.verdict = x.run.verdict := rfl

@[simp] theorem Lane.restart_run_stale (t : Stamp) (x : Lane) : (x.restart t).run.stale = x.run.stale := rfl

@[simp] theorem Lane.restart_run_held (t : Stamp) (x : Lane) : (x.restart t).run.held = x.run.held := rfl

@[simp] theorem Lane.restart_run_tallies (t : Stamp) (x : Lane) : (x.restart t).run.tallies = x.run.tallies := rfl

@[simp] theorem Lane.restart_run_firstFault (t : Stamp) (x : Lane) : (x.restart t).run.firstFault = x.run.firstFault := rfl

@[simp] theorem Lane.advance_run_state (x : Lane) : x.advance.run.state = x.run.state := rfl

@[simp] theorem Lane.advance_run_anchor (x : Lane) : x.advance.run.anchor = x.run.anchor := rfl

@[simp] theorem Lane.advance_run_runId (x : Lane) : x.advance.run.runId = x.run.runId := rfl

@[simp] theorem Lane.advance_run_plan (x : Lane) : x.advance.run.plan = x.run.plan := rfl

@[simp] theorem Lane.advance_run_refusal (x : Lane) : x.advance.run.refusal = x.run.refusal := rfl

@[simp] theorem Lane.advance_run_current (x : Lane) : x.advance.run.current = some ⟨x.run.passIndex + 1, 1⟩ := rfl

@[simp] theorem Lane.advance_run_runClock (x : Lane) : x.advance.run.runClock = x.run.runClock := rfl

@[simp] theorem Lane.advance_run_stallTimer (x : Lane) : x.advance.run.stallTimer = 0 := rfl

@[simp] theorem Lane.advance_run_drainTimer (x : Lane) : x.advance.run.drainTimer = x.run.drainTimer := rfl

@[simp] theorem Lane.advance_run_verdict (x : Lane) : x.advance.run.verdict = x.run.verdict := rfl

@[simp] theorem Lane.advance_run_stale (x : Lane) : x.advance.run.stale = x.run.stale := rfl

@[simp] theorem Lane.advance_run_held (x : Lane) : x.advance.run.held = x.run.held := rfl

@[simp] theorem Lane.advance_run_tallies (x : Lane) : x.advance.run.tallies = x.run.tallies := rfl

@[simp] theorem Lane.advance_run_firstFault (x : Lane) : x.advance.run.firstFault = x.run.firstFault := rfl

@[simp] theorem Lane.finish_run_state (x : Lane) : x.finish.run.state = .closing := rfl

@[simp] theorem Lane.finish_run_anchor (x : Lane) : x.finish.run.anchor = x.run.anchor := rfl

@[simp] theorem Lane.finish_run_runId (x : Lane) : x.finish.run.runId = x.run.runId := rfl

@[simp] theorem Lane.finish_run_plan (x : Lane) : x.finish.run.plan = x.run.plan := rfl

@[simp] theorem Lane.finish_run_refusal (x : Lane) : x.finish.run.refusal = x.run.refusal := rfl

@[simp] theorem Lane.finish_run_current (x : Lane) : x.finish.run.current = x.run.current := rfl

@[simp] theorem Lane.finish_run_runClock (x : Lane) : x.finish.run.runClock = x.run.runClock := rfl

@[simp] theorem Lane.finish_run_stallTimer (x : Lane) : x.finish.run.stallTimer = 0 := rfl

@[simp] theorem Lane.finish_run_drainTimer (x : Lane) : x.finish.run.drainTimer = 0 := rfl

@[simp] theorem Lane.finish_run_verdict (x : Lane) : x.finish.run.verdict = some (lastPassVerdict x.run.allowance x.defects) := rfl

@[simp] theorem Lane.finish_run_stale (x : Lane) : x.finish.run.stale = x.run.stale := rfl

@[simp] theorem Lane.finish_run_held (x : Lane) : x.finish.run.held = x.run.held := rfl

@[simp] theorem Lane.finish_run_tallies (x : Lane) : x.finish.run.tallies = x.run.tallies := rfl

@[simp] theorem Lane.finish_run_firstFault (x : Lane) : x.finish.run.firstFault = x.run.firstFault := rfl

/-! ## Tracker, map and list -/

@[simp] theorem Tracker.replace_epoch (t : Tracker) (r : Record) : (t.replace r).epoch = t.epoch := rfl

@[simp] theorem Tracker.remove_epoch (t : Tracker) (tag : Tag) : (t.remove tag).epoch = t.epoch := rfl

@[simp] theorem Tracker.replace_untracked (t : Tracker) (r : Record) : (t.replace r).untracked = t.untracked := rfl

@[simp] theorem Tracker.remove_untracked (t : Tracker) (tag : Tag) : (t.remove tag).untracked = t.untracked := rfl

@[simp] theorem Tracker.countUntracked_records (t : Tracker) (n : Nat) : (t.countUntracked n).records = t.records := rfl

@[simp] theorem Tracker.countUntracked_epoch (t : Tracker) (n : Nat) : (t.countUntracked n).epoch = t.epoch := rfl

@[simp] theorem Tracker.countUntracked_untracked (t : Tracker) (n : Nat) :
    (t.countUntracked n).untracked = saturate Config.max16 (t.untracked + n) := rfl

@[simp] theorem Tracker.abandon_records (p : Tag → Bool) (t : Tracker) :
    (t.abandon p).records = t.records.filter (fun r => !p r.tag) := rfl

@[simp] theorem Tracker.abandon_epoch (p : Tag → Bool) (t : Tracker) : (t.abandon p).epoch = t.epoch := rfl

@[simp] theorem Coverage.countUncredited_extents (n : Nat) (m : Coverage) :
    (m.countUncredited n).extents = m.extents := rfl

@[simp] theorem Coverage.remove_extents (sectors : List Nat) (m : Coverage) :
    (m.remove sectors).extents = removeCredit sectors m.extents := rfl

@[simp] theorem Coverage.remove_uncredited (sectors : List Nat) (m : Coverage) :
    (m.remove sectors).uncredited = m.uncredited := rfl

@[simp] theorem Coverage.clear_extents (m : Coverage) : m.clear.extents = [] := rfl

@[simp] theorem Coverage.clear_uncredited (m : Coverage) : m.clear.uncredited = m.uncredited := rfl

@[simp] theorem Coverage.dropCached_uncredited (m : Coverage) : m.dropCached.uncredited = m.uncredited := rfl

end Sys2Proof.Machine
end

