-- ==== Sys2Proof/Laws/Lanes.lean ====
section
/-! SUPPORT. What each shared operation on one lane can do, said once: pacing, groups, the completeness test,
additions to the Defect List, credit, and retirement. -/

namespace Sys2Proof.Machine

/-! ## Saturating counters -/

theorem saturate_eq_min (max n : Nat) : saturate max n = min max n := by
  unfold saturate; split <;> omega

theorem saturate_le (max n : Nat) : saturate max n ≤ max := by rw [saturate_eq_min]; omega

/-! ## Pacing (R50, R51) -/

/-- After a job joins, only the trigger reason can change: it is set at or above the hold level. -/
theorem Lane.afterJoin_eq (x : Lane) :
    x.afterJoin = x.modifyTap (fun t =>
      { t with trigger := t.trigger || decide (holdLevel x.capture.pacing ≤ x.capture.queue.length) }) := by
  unfold Lane.afterJoin
  split
  · next h => simp [Lane.modifyTap, h]
  · next h => simp [Lane.modifyTap, decide_eq_false h]

/-- After jobs leave, only the trigger reason can change: it is cleared at or below the release level. -/
theorem Lane.afterLeave_eq (x : Lane) :
    x.afterLeave = x.modifyTap (fun t =>
      { t with
        trigger := t.trigger && !decide (x.capture.queue.length ≤ releaseLevel x.capture.pacing) }) := by
  unfold Lane.afterLeave
  split
  · next h => simp [Lane.modifyTap, h]
  · next h => simp [Lane.modifyTap, decide_eq_false h]

/-- A change of pacing code sets the code, and the trigger reason by the new levels. -/
theorem Lane.setPacing_eq (code : Fin 4) (x : Lane) :
    x.setPacing code = (x.modifyCapture (fun c => { c with pacing := code })).modifyTap (fun t =>
      { t with
        trigger := (t.trigger || decide (holdLevel code ≤ x.capture.queue.length))
          && !decide (x.capture.queue.length ≤ releaseLevel code) }) := by
  rw [Lane.setPacing, Lane.afterLeave_eq, Lane.afterJoin_eq]
  rfl

/-! ## Fault groups (R146 to R156) -/

/-- The four actions: nothing, SUSPENDED, a new attempt, or CLOSING with outcome FAILED. -/
theorem Lane.applyAction_cases (a : Action) (f : FaultClass) (x : Lane) :
    x.applyAction a f = x
      ∨ (a = .suspend ∧ x.run.state = .running
          ∧ x.applyAction a f = x.modifyRun (fun c => { c with state := .suspended }))
      ∨ (∃ t, a = .restart ∧ x.run.current = some t ∧ t.attempt < Config.maxAttempt
          ∧ x.applyAction a f = x.restart t)
      ∨ ((a = .restart ∨ a = .fail) ∧ x.applyAction a f = x.close ⟨.failed, .fault f⟩) := by
  cases a with
  | note => exact .inl rfl
  | suspend =>
    by_cases h : x.run.state = .running
    · exact .inr (.inl ⟨rfl, h, by simp [Lane.applyAction, Lane.applySuspend, h]⟩)
    · exact .inl (by simp [Lane.applyAction, Lane.applySuspend, h])
  | restart =>
    cases h : x.run.current with
    | none => exact .inl (by simp [Lane.applyAction, Lane.applyRestart, h])
    | some t =>
      by_cases g : t.attempt < Config.maxAttempt
      · exact .inr (.inr (.inl ⟨t, rfl, rfl, g, by simp [Lane.applyAction, Lane.applyRestart, h, g]⟩))
      · exact .inr (.inr (.inr ⟨.inl rfl, by
          simp [Lane.applyAction, Lane.applyRestart, h, g, Lane.failRun]⟩))
  | fail => exact .inr (.inr (.inr ⟨.inr rfl, rfl⟩))

/-- A group does nothing when it is empty, is tallied only where faults are not handled, and otherwise is tallied,
recorded, and its action applied for its deciding class. -/
theorem Lane.takeGroup_cases (g : List LaneFault) (x : Lane) :
    (x.run.decidingClass g = none ∧ x.takeGroup g = x)
      ∨ (∃ f, x.run.decidingClass g = some f
          ∧ ((x.run.state.handlesFaults = false ∧ x.takeGroup g = x.modifyRun (fun c => c.tally g))
            ∨ (x.run.state.handlesFaults = true
                ∧ x.takeGroup g = (x.modifyRun (fun c => (c.tally g).fillFirst g)).applyAction
                    (x.run.groupAction g) f))) := by
  cases h : x.run.decidingClass g with
  | none => exact .inl ⟨rfl, by simp [Lane.takeGroup, h]⟩
  | some f =>
    refine .inr ⟨f, rfl, ?_⟩
    cases k : x.run.state.handlesFaults
    · exact .inl ⟨rfl, by simp [Lane.takeGroup, h, k]⟩
    · exact .inr ⟨rfl, by simp [Lane.takeGroup, h, k]⟩

@[simp] theorem RunControl.fillFirst_state (g : List LaneFault) (c : RunControl) :
    (c.fillFirst g).state = c.state := by unfold RunControl.fillFirst; split <;> rfl

@[simp] theorem RunControl.fillFirst_plan (g : List LaneFault) (c : RunControl) :
    (c.fillFirst g).plan = c.plan := by unfold RunControl.fillFirst; split <;> rfl

@[simp] theorem RunControl.fillFirst_current (g : List LaneFault) (c : RunControl) :
    (c.fillFirst g).current = c.current := by unfold RunControl.fillFirst; split <;> rfl

@[simp] theorem RunControl.fillFirst_tallies (g : List LaneFault) (c : RunControl) :
    (c.fillFirst g).tallies = c.tallies := by unfold RunControl.fillFirst; split <;> rfl

@[simp] theorem RunControl.fillFirst_passRecords (g : List LaneFault) (c : RunControl) :
    (c.fillFirst g).passRecords = c.passRecords := by unfold RunControl.fillFirst; split <;> rfl

/-- An action reaches the run and, by a restart, the map, and no other block. -/
theorem Lane.applyAction_frame (a : Action) (f : FaultClass) (x : Lane) :
    (x.applyAction a f).tap = x.tap ∧ (x.applyAction a f).tracker = x.tracker
      ∧ (x.applyAction a f).capture = x.capture ∧ (x.applyAction a f).defects = x.defects
      ∧ (x.applyAction a f).latch = x.latch
      ∧ ((x.applyAction a f).coverage = x.coverage ∨ (x.applyAction a f).coverage = x.coverage.clear) := by
  obtain h | ⟨-, -, h⟩ | ⟨t, -, -, -, h⟩ | ⟨-, h⟩ := Lane.applyAction_cases a f x <;> rw [h] <;> simp

/-- A group reaches the run and, by a restart, the map, and no other block. -/
theorem Lane.takeGroup_frame (g : List LaneFault) (x : Lane) :
    (x.takeGroup g).tap = x.tap ∧ (x.takeGroup g).tracker = x.tracker
      ∧ (x.takeGroup g).capture = x.capture ∧ (x.takeGroup g).defects = x.defects
      ∧ (x.takeGroup g).latch = x.latch
      ∧ ((x.takeGroup g).coverage = x.coverage ∨ (x.takeGroup g).coverage = x.coverage.clear) := by
  obtain ⟨-, h⟩ | ⟨f, -, ⟨-, h⟩ | ⟨-, h⟩⟩ := Lane.takeGroup_cases g x <;> rw [h]
  · simp
  · simp
  · simpa using Lane.applyAction_frame (x.run.groupAction g) f (x.modifyRun _)

/-! ## The completeness test (R121, R130, R131) -/

/-- Whatever holds of a lane, and is kept by each pass advance and by the end of the last pass, holds after the
completeness test. -/
theorem Lane.test_induct {P : Lane → Prop} {x : Lane} (start : P x)
    (advance : ∀ y, P y → y.run.state = .running → y.complete = true → y.run.inLastPass = false →
      P y.advance)
    (finish : ∀ y, P y → y.run.state = .running → y.complete = true → y.run.inLastPass = true →
      P y.finish) : P x.test := by
  suffices h : ∀ n y, P y → P (Lane.testComplete n y) from h _ _ start
  intro n
  induction n with
  | zero => exact fun _ h => h
  | succ n ih =>
    intro y hy
    unfold Lane.testComplete
    split
    · next h =>
      split
      · next k => exact finish y hy h.1 h.2 k
      · next k => exact ih _ (advance y hy h.1 h.2 (by simpa using k))
    · exact hy

/-- The test does nothing on a lane that is not RUNNING or whose pass is not complete. -/
theorem Lane.test_eq_self {x : Lane} (h : ¬ (x.run.state = .running ∧ x.complete = true)) : x.test = x := by
  unfold Lane.test
  cases x.run.passCount with
  | zero => rfl
  | succ n => simp only [Lane.testComplete, if_neg h]

/-- The test reaches the run and the map, and no other block. -/
theorem Lane.test_frame (x : Lane) :
    x.test.tap = x.tap ∧ x.test.tracker = x.tracker ∧ x.test.capture = x.capture
      ∧ x.test.defects = x.defects ∧ x.test.latch = x.latch ∧ x.test.run.plan = x.run.plan
      ∧ x.test.run.tallies = x.run.tallies ∧ x.test.run.firstFault = x.run.firstFault := by
  refine Lane.test_induct (P := fun y => y.tap = x.tap ∧ y.tracker = x.tracker ∧ y.capture = x.capture
    ∧ y.defects = x.defects ∧ y.latch = x.latch ∧ y.run.plan = x.run.plan
    ∧ y.run.tallies = x.run.tallies ∧ y.run.firstFault = x.run.firstFault) (by simp) ?_ ?_ <;>
  · intro y hy _ _ _; simpa using hy

/-! ## Credit (R93 to R101) -/

/-- A credit removal is exact, or removes whole every extent it would split. -/
theorem removeCredit_cases (sectors : List Nat) (m : List Extent) :
    ((cutSpans (spansOf sectors) m).length ≤ Config.extentLimit
        ∧ removeCredit sectors m = cutSpans (spansOf sectors) m)
      ∨ (Config.extentLimit < (cutSpans (spansOf sectors) m).length
        ∧ removeCredit sectors m = m.flatMap (fun x =>
            if 2 ≤ (cutSpans (spansOf sectors) [x]).length then []
            else cutSpans (spansOf sectors) [x])) := by
  by_cases h : (cutSpans (spansOf sectors) m).length ≤ Config.extentLimit
  · exact .inl ⟨h, by simp [removeCredit, h]⟩
  · exact .inr ⟨by omega, by simp [removeCredit, h]⟩

/-- A write credit does nothing, or is granted in at most 64 extents, or becomes a removal that is counted. -/
theorem Coverage.writeCredit_cases (flush : Bool) (epoch : Nat) (sectors : List Nat) (m : Coverage) :
    (sectors = [] ∧ m.writeCredit flush epoch sectors = ⟨m, false⟩)
      ∨ (sectors ≠ []
        ∧ (grantCredit sectors (writeCreditState flush epoch) m.extents).length ≤ Config.extentLimit
        ∧ (m.writeCredit flush epoch sectors).coverage
            = { m with extents := grantCredit sectors (writeCreditState flush epoch) m.extents })
      ∨ (sectors ≠ []
        ∧ Config.extentLimit < (grantCredit sectors (writeCreditState flush epoch) m.extents).length
        ∧ m.writeCredit flush epoch sectors
            = ⟨(m.remove sectors).countUncredited sectors.length, false⟩) := by
  by_cases h : sectors = []
  · exact .inl ⟨h, by simp [Coverage.writeCredit, h]⟩
  by_cases k : (grantCredit sectors (writeCreditState flush epoch) m.extents).length ≤ Config.extentLimit
  · exact .inr (.inl ⟨h, k, by simp [Coverage.writeCredit, h, k]⟩)
  · exact .inr (.inr ⟨h, by omega, by simp [Coverage.writeCredit, h, k]⟩)

/-- A verify credit does nothing, or raises the WRITTEN sectors of its set in at most 64 extents, or is counted
alone. -/
theorem Coverage.verifyCredit_cases (sectors : List Nat) (m : Coverage) :
    (writtenSectors sectors m.extents = [] ∧ m.verifyCredit sectors = ⟨m, false⟩)
      ∨ (writtenSectors sectors m.extents ≠ []
        ∧ (grantCredit (writtenSectors sectors m.extents) .verified m.extents).length ≤ Config.extentLimit
        ∧ m.verifyCredit sectors
            = ⟨{ m with
                  extents := grantCredit (writtenSectors sectors m.extents) .verified m.extents }, true⟩)
      ∨ (writtenSectors sectors m.extents ≠ []
        ∧ Config.extentLimit < (grantCredit (writtenSectors sectors m.extents) .verified m.extents).length
        ∧ m.verifyCredit sectors
            = ⟨m.countUncredited (writtenSectors sectors m.extents).length, false⟩) := by
  by_cases h : writtenSectors sectors m.extents = []
  · exact .inl ⟨h, by simp [Coverage.verifyCredit, h]⟩
  by_cases k : (grantCredit (writtenSectors sectors m.extents) .verified m.extents).length
      ≤ Config.extentLimit
  · exact .inr (.inl ⟨h, k, by simp [Coverage.verifyCredit, h, k]⟩)
  · exact .inr (.inr ⟨h, by omega, by simp [Coverage.verifyCredit, h, k]⟩)

/-- A map result taken reaches the map, and the stall timer at a credit event. -/
theorem Lane.takeMapResult_eq (m : MapResult) (x : Lane) :
    x.takeMapResult m = { x with
      coverage := m.coverage
      run := { x.run with stallTimer := if m.creditEvent then 0 else x.run.stallTimer } } := by
  unfold Lane.takeMapResult
  split <;> rfl

/-! ## Additions to the Defect List (R111 to R116) -/

/-- One addition does nothing to a sector already listed, lists a sector and counts it, or counts it unlisted. In
the last two the sector loses its credit, and at most one fault is raised, a DEFECT_OVERRUN at its LBA. -/
theorem addDefect_cases (k : DefectKind) (p : Nat) (h : Handover) (a : Nat) :
    (h.lane.defects.lists a = true ∧ addDefect k p h a = h)
      ∨ (∃ es, h.lane.defects.lists a = false ∧ listSector a k p h.lane.defects.entries = some es
        ∧ addDefect k p h a =
          { lane := { h.lane with
              defects := { h.lane.defects with
                entries := es, total := saturate Config.max32 (h.lane.defects.total + 1) }
              coverage := h.lane.coverage.remove [a] }
            faults := h.faults ++ overrunFault (h.lane.run.passesAllowance h.lane.defects.total) a })
      ∨ (h.lane.defects.lists a = false ∧ listSector a k p h.lane.defects.entries = none
        ∧ addDefect k p h a =
          { lane := { h.lane with
              defects := { h.lane.defects with
                unlisted := saturate Config.max32 (h.lane.defects.unlisted + 1) }
              coverage := h.lane.coverage.remove [a] }
            faults := h.faults ++ overrunFault (decide (h.lane.defects.unlisted = 0)) a }) := by
  cases hl : h.lane.defects.lists a
  · cases he : listSector a k p h.lane.defects.entries with
    | none => exact .inr (.inr ⟨rfl, rfl, by simp [addDefect, hl, he]⟩)
    | some es => exact .inr (.inl ⟨es, rfl, rfl, by simp [addDefect, hl, he]⟩)
  · exact .inl ⟨rfl, by simp [addDefect, hl]⟩

/-- Whatever one addition keeps, the additions of a retirement keep. -/
theorem addDefects_induct {P : Handover → Prop} (k : DefectKind) (p : Nat) (sectors : List Nat)
    {h : Handover} (start : P h) (one : ∀ g a, a ∈ sectors → P g → P (addDefect k p g a)) :
    P (addDefects k p sectors h) := by
  unfold addDefects
  induction sectors generalizing h with
  | nil => exact start
  | cons a rest ih =>
    exact ih (one h a (by simp) start) (fun g b hb => one g b (by simp [hb]))

/-- Additions reach the list and the map, and no other block. -/
theorem addDefects_frame (k : DefectKind) (p : Nat) (sectors : List Nat) (h : Handover) :
    (addDefects k p sectors h).lane.tap = h.lane.tap
      ∧ (addDefects k p sectors h).lane.tracker = h.lane.tracker
      ∧ (addDefects k p sectors h).lane.capture = h.lane.capture
      ∧ (addDefects k p sectors h).lane.run = h.lane.run
      ∧ (addDefects k p sectors h).lane.latch = h.lane.latch := by
  refine addDefects_induct (P := fun g => g.lane.tap = h.lane.tap ∧ g.lane.tracker = h.lane.tracker
    ∧ g.lane.capture = h.lane.capture ∧ g.lane.run = h.lane.run ∧ g.lane.latch = h.lane.latch)
    k p sectors (by simp) ?_
  intro g a _ hg
  obtain ⟨-, e⟩ | ⟨es, -, -, e⟩ | ⟨-, -, e⟩ := addDefect_cases k p g a <;> rw [e] <;> exact hg

/-! ## Markers (R74 to R87) -/

/-- A PLAN taken does nothing without a drive, and otherwise is refused with a report or accepted. -/
theorem Lane.takePlan_cases (v : StoreView) (m : TakenMarker) (x : Lane) :
    (x.tap.sectorSize = none ∧ x.takePlan v m = x)
      ∨ (∃ size reason, x.tap.sectorSize = some size ∧ planFailure v.readEnded size m.words = some reason
        ∧ x.takePlan v m = x.refusePlan reason v.unitNumber size m.words m.lba)
      ∨ (∃ size, x.tap.sectorSize = some size ∧ planFailure v.readEnded size m.words = none
        ∧ x.takePlan v m = (x.modifyTap (fun t => { t with reportReady := false })).acceptPlan
            (decodePlan size m.words) m.lba) := by
  cases hs : x.tap.sectorSize with
  | none => exact .inl ⟨rfl, by simp [Lane.takePlan, hs]⟩
  | some size =>
    cases hp : planFailure v.readEnded size m.words with
    | some reason => exact .inr (.inl ⟨size, reason, rfl, hp, by simp [Lane.takePlan, hs, hp]⟩)
    | none => exact .inr (.inr ⟨size, rfl, hp, by simp [Lane.takePlan, hs, hp]⟩)

/-- A taken marker handed on has the effect of its kind where the run state admits it, and otherwise none. -/
theorem Lane.applyMarker_cases (v : StoreView) (m : TakenMarker) (x : Lane) :
    (m.kind.admittedIn x.run.state = false ∧ x.applyMarker v m = x)
      ∨ (m.kind.admittedIn x.run.state = true
        ∧ ((m.kind = .plan ∧ x.applyMarker v m = x.takePlan v m)
          ∨ (m.kind = .resume ∧ x.applyMarker v m = x.resume)
          ∨ (m.kind = .halt ∧ x.applyMarker v m = x.halt)
          ∨ (m.kind = .release ∧ x.applyMarker v m = x.release))) := by
  cases ha : m.kind.admittedIn x.run.state
  · exact .inl ⟨rfl, by simp [Lane.applyMarker, ha]⟩
  · refine .inr ⟨rfl, ?_⟩
    cases hk : m.kind <;> rw [hk] at ha <;> simp [Lane.applyMarker, hk, ha]

/-! ## Retirement (R27) -/

@[simp] theorem Lane.removeCredit_run (sectors : List Nat) (x : Lane) :
    (x.removeCredit sectors).run = x.run := rfl

@[simp] theorem Lane.takeMapResult_capture (m : MapResult) (x : Lane) :
    (x.takeMapResult m).capture = x.capture := rfl

@[simp] theorem Lane.takeMapResult_tracker (m : MapResult) (x : Lane) :
    (x.takeMapResult m).tracker = x.tracker := rfl

@[simp] theorem Lane.takeMapResult_tap (m : MapResult) (x : Lane) : (x.takeMapResult m).tap = x.tap := rfl

@[simp] theorem Lane.takeMapResult_latch (m : MapResult) (x : Lane) : (x.takeMapResult m).latch = x.latch := rfl

/-- The tap, the tracker, the lane's part of the pool and the lamp latch are as before. -/
structure Lane.SameBeside (x y : Lane) : Prop where
  tap : y.tap = x.tap
  tracker : y.tracker = x.tracker
  capture : y.capture = x.capture
  latch : y.latch = x.latch

theorem Lane.SameBeside.trans {x y z : Lane} (h : x.SameBeside y) (k : y.SameBeside z) : x.SameBeside z where
  tap := k.tap.trans h.tap
  tracker := k.tracker.trans h.tracker
  capture := k.capture.trans h.capture
  latch := k.latch.trans h.latch

theorem Lane.SameBeside.rfl (x : Lane) : x.SameBeside x := by constructor <;> rfl

theorem Lane.SameBeside.removeCredit {x y : Lane} (sectors : List Nat) (h : x.SameBeside y) :
    x.SameBeside (y.removeCredit sectors) := h.trans (by constructor <;> rfl)

theorem Lane.SameBeside.takeMapResult {x y : Lane} (m : MapResult) (h : x.SameBeside y) :
    x.SameBeside (y.takeMapResult m) := h.trans (by constructor <;> rfl)

theorem Lane.SameBeside.writeCredit {x y : Lane} (sectors : List Nat) (h : x.SameBeside y) :
    x.SameBeside (y.writeCredit sectors) := .takeMapResult _ h

theorem Lane.SameBeside.addDefects {x : Lane} {h : Handover} (k : DefectKind) (p : Nat) (sectors : List Nat)
    (e : x.SameBeside h.lane) : x.SameBeside (addDefects k p sectors h).lane := by
  obtain ⟨tap, tracker, capture, -, latch⟩ := addDefects_frame k p sectors h
  exact e.trans { tap, tracker, capture, latch }

theorem handOverWrite_sameBeside (i : Option Nat) (r : Record) (x : Lane) :
    x.SameBeside (handOverWrite i r x).lane := by
  unfold handOverWrite
  split
  · exact .writeCredit _ (.removeCredit _ (.addDefects _ _ _ (by constructor <;> rfl)))
  · refine .addDefects _ _ _ (.removeCredit _ ?_)
    split <;> constructor <;> rfl

theorem handOverRead_sameBeside (r : Record) (x : Lane) : x.SameBeside (handOverRead r x).lane := by
  unfold handOverRead
  split
  · exact .takeMapResult _ (.addDefects _ _ _ (.addDefects _ _ _ (.rfl x)))
  · exact .addDefects _ _ _ (.rfl x)

/-- Steps 2 and 3 of retirement leave the tracker, the lane's part of the pool and the lamp latch alone, and of the
tap reach at most the report-ready flag. -/
theorem handOver_frame (taken : Option TakenMarker) (r : Record) (x : Lane) :
    (handOver taken r x).lane.tracker = x.tracker ∧ (handOver taken r x).lane.capture = x.capture
      ∧ (handOver taken r x).lane.latch = x.latch
      ∧ ((handOver taken r x).lane.tap = x.tap
        ∨ (handOver taken r x).lane.tap = { x.tap with reportReady := true }) := by
  have write i := handOverWrite_sameBeside i r x
  have read := handOverRead_sameBeside r x
  have beside {y : Lane} (h : x.SameBeside y) : y.tracker = x.tracker ∧ y.capture = x.capture
      ∧ y.latch = x.latch ∧ (y.tap = x.tap ∨ y.tap = { x.tap with reportReady := true }) :=
    ⟨h.tracker, h.capture, h.latch, .inl h.tap⟩
  unfold handOver
  split
  · split
    · exact beside (write _)
    · exact beside read
    · exact beside (by constructor <;> rfl)
    · unfold handOverFlush; dsimp only; split <;> exact beside (by constructor <;> rfl)
  · split
    · exact beside (write _)
    · exact beside read
    · exact beside (by constructor <;> rfl)
    · unfold handOverFlush; dsimp only; split <;> exact beside (by constructor <;> rfl)
  · unfold handOverClosing; dsimp only; split <;> exact beside (by constructor <;> rfl)
  all_goals first
    | exact ⟨rfl, rfl, rfl, .inl rfl⟩
    | (unfold handOverIssued; dsimp only
       split
       · refine ⟨rfl, rfl, rfl, ?_⟩
         by_cases k : x.run.state = .issued
         · exact .inr (if_pos k)
         · exact .inl (if_neg k)
       · exact ⟨rfl, rfl, rfl, .inl rfl⟩)

end Sys2Proof.Machine
end

