-- ==== Sys2Proof/Laws/Part.lean ====
section
/-! SUPPORT. What each shared operation on the whole part can do, said once: buffers, discards, the grant, the Issue
Store and the end of CLOSING; and what each leaves alone. -/

namespace Sys2Proof.Machine

/-! ## What an operation on one lane leaves alone -/

/-- Supply, reset input, links, waiting commands and the store are as before. -/
structure State.SameOutside (s t : State) : Prop where
  powered : t.powered = s.powered
  inReset : t.inReset = s.inReset
  links : t.links = s.links
  store : t.store = s.store
  pending : t.pending = s.pending

theorem State.SameOutside.rfl (s : State) : s.SameOutside s := by constructor <;> rfl

theorem State.SameOutside.trans {s t u : State} (h : s.SameOutside t) (k : t.SameOutside u) :
    s.SameOutside u :=
  ⟨k.1.trans h.1, k.2.trans h.2, k.3.trans h.3, k.4.trans h.4, k.5.trans h.5⟩

theorem State.modifyLane_sameOutside (s : State) (l : LaneId) (f : Lane → Lane) :
    s.SameOutside (s.modifyLane l f) := by constructor <;> rfl

/-! ## Buffers (R47, R48, R59) -/

/-- A buffer freed joins the free list when no lane waits, and otherwise is reserved for the lane that waits
longest, which is released. -/
theorem State.freeBuffer_cases (s : State) (b : BufferId) :
    (s.pool.waitingList = []
        ∧ s.freeBuffer b = { s with pool := { s.pool with freeBuffers := b :: s.pool.freeBuffers } })
      ∨ (∃ l rest, s.pool.waitingList = l :: rest
        ∧ s.freeBuffer b = { s with pool := { s.pool with waitingList := rest } }.modifyLane l (fun x =>
            (x.modifyCapture (fun c => { c with reservation := some b })).modifyTap
              (fun t => { t with poolReason := false }))) := by
  cases h : s.pool.waitingList with
  | nil => exact .inl ⟨rfl, by simp [State.freeBuffer, h]⟩
  | cons l rest => exact .inr ⟨l, rest, rfl, by simp [State.freeBuffer, h]⟩

/-- A buffer freed reaches the pool and, of the lanes, a reservation and its pool reason. -/
theorem State.freeBuffer_frame (s : State) (b : BufferId) :
    s.SameOutside (s.freeBuffer b) ∧ (s.freeBuffer b).engine = s.engine
      ∧ ∀ m, ((s.freeBuffer b).lane m).tracker = (s.lane m).tracker
        ∧ ((s.freeBuffer b).lane m).coverage = (s.lane m).coverage
        ∧ ((s.freeBuffer b).lane m).defects = (s.lane m).defects
        ∧ ((s.freeBuffer b).lane m).run = (s.lane m).run
        ∧ ((s.freeBuffer b).lane m).latch = (s.lane m).latch
        ∧ ((s.freeBuffer b).lane m).capture.queue = (s.lane m).capture.queue
        ∧ ((s.freeBuffer b).lane m).capture.pacing = (s.lane m).capture.pacing
        ∧ ((s.freeBuffer b).lane m).tap.trigger = (s.lane m).tap.trigger
        ∧ ((s.freeBuffer b).lane m).tap.waiting = (s.lane m).tap.waiting := by
  obtain ⟨-, h⟩ | ⟨l, rest, -, h⟩ := State.freeBuffer_cases s b <;> rw [h]
  · exact ⟨by constructor <;> rfl, .refl _, fun m => by simp⟩
  · refine ⟨by constructor <;> rfl, .refl _, fun m => ?_⟩
    by_cases e : m = l
    · subst e; simp
    · simp [e]

/-- Whatever one freed buffer keeps, several keep. -/
theorem State.freeBuffers_induct {P : State → Prop} (bs : List BufferId) {s : State} (start : P s)
    (one : ∀ t b, b ∈ bs → P t → P (t.freeBuffer b)) : P (s.freeBuffers bs) := by
  unfold State.freeBuffers
  induction bs generalizing s with
  | nil => exact start
  | cons b rest ih => exact ih (one s b (by simp) start) (fun t c hc => one t c (by simp [hc]))

/-- A cancelled reservation frees its buffer anew. -/
theorem State.cancelReservation_cases (s : State) (l : LaneId) :
    ((s.lane l).capture.reservation = none ∧ s.cancelReservation l = s)
      ∨ (∃ b, (s.lane l).capture.reservation = some b
        ∧ s.cancelReservation l
          = (s.modifyLane l (fun x =>
              x.modifyCapture (fun c => { c with reservation := none }))).freeBuffer b) := by
  cases h : (s.lane l).capture.reservation with
  | none => exact .inl ⟨rfl, by simp [State.cancelReservation, h]⟩
  | some b => exact .inr ⟨b, rfl, by simp [State.cancelReservation, h]⟩

/-- The discard mark goes on the job in flight when it is the lane's and is meant, and nothing else changes. -/
theorem State.markInFlight_cases (s : State) (l : LaneId) (p : Job → Bool) :
    s.markInFlight l p = s
      ∨ (∃ f, s.engine.inFlight = some f ∧ f.lane = l ∧ p f.job = true
        ∧ s.markInFlight l p
          = { s with engine := { s.engine with inFlight := some { f with discard := true } } }) := by
  cases h : s.engine.inFlight with
  | none => exact .inl (by simp [State.markInFlight, h])
  | some f =>
    by_cases k : f.lane = l ∧ p f.job = true
    · exact .inr ⟨f, rfl, k.1, k.2, by simp [State.markInFlight, h, k]⟩
    · exact .inl (by simp only [State.markInFlight, h, if_neg k])

/-- A job whose sector is cut off frees its buffer and the engine; any other goes on. -/
theorem State.cutOff_cases (s : State) (l : LaneId) (crossing : Option BufferId) :
    s.cutOff l crossing = s
      ∨ (∃ f, s.engine.inFlight = some f ∧ f.lane = l ∧ crossing = some f.job.buffer
        ∧ s.cutOff l crossing
          = { s with engine := { s.engine with inFlight := none } }.freeBuffer f.job.buffer) := by
  cases h : s.engine.inFlight with
  | none => exact .inl (by simp [State.cutOff, h])
  | some f =>
    by_cases k : f.lane = l ∧ crossing = some f.job.buffer
    · exact .inr ⟨f, rfl, k.1, k.2, by simp [State.cutOff, h, k]⟩
    · exact .inl (by simp only [State.cutOff, h, if_neg k])

/-! ## The grant (R53) -/

/-- The search visits every lane. -/
theorem mem_searchOrder (last l : LaneId) : l ∈ searchOrder last := by
  revert last l; decide

/-- The grant does nothing while a job is in flight or no queue holds one, and otherwise takes the head job of the
first lane in search order whose queue is not empty. -/
theorem State.grant_cases (s : State) :
    (s.grant = s ∧ (s.engine.inFlight.isSome = true ∨ ∀ l, (s.lane l).capture.queue = []))
      ∨ (∃ l j rest, s.engine.inFlight = none ∧ (s.lane l).capture.queue = j :: rest
        ∧ (searchOrder s.engine.lastGranted).find? (fun m => !(s.lane m).capture.queue.isEmpty) = some l
        ∧ s.grant = s.grantJob l j rest) := by
  cases h : s.engine.inFlight with
  | some f => exact .inl ⟨by simp [State.grant, h], .inl (by simp)⟩
  | none =>
    cases k : (searchOrder s.engine.lastGranted).find? (fun m => !(s.lane m).capture.queue.isEmpty) with
    | none =>
      refine .inl ⟨by simp [State.grant, h, k], .inr fun l => ?_⟩
      have := List.find?_eq_none.mp k l (mem_searchOrder _ _)
      simpa using this
    | some l =>
      have hq := List.find?_some k
      cases q : (s.lane l).capture.queue with
      | nil => simp [q] at hq
      | cons j rest => exact .inr ⟨l, j, rest, rfl, q, rfl, by simp [State.grant, h, k, q]⟩

/-- The grant reaches the engine, the granted lane's queue and its trigger reason. -/
theorem State.grant_frame (s : State) :
    s.SameOutside s.grant ∧ s.grant.pool = s.pool
      ∧ ∀ m, (s.grant.lane m).tracker = (s.lane m).tracker
        ∧ (s.grant.lane m).coverage = (s.lane m).coverage ∧ (s.grant.lane m).defects = (s.lane m).defects
        ∧ (s.grant.lane m).run = (s.lane m).run ∧ (s.grant.lane m).latch = (s.lane m).latch
        ∧ (s.grant.lane m).capture.reservation = (s.lane m).capture.reservation
        ∧ (s.grant.lane m).capture.pacing = (s.lane m).capture.pacing := by
  obtain ⟨h, -⟩ | ⟨l, j, rest, -, -, -, h⟩ := State.grant_cases s <;> rw [h]
  · exact ⟨by constructor <;> rfl, .refl _, fun m => by simp⟩
  · refine ⟨by constructor <;> rfl, .refl _, fun m => ?_⟩
    by_cases e : m = l
    · subst e; simp [State.grantJob, Lane.afterLeave_eq]
    · simp [State.grantJob, e]

/-! ## The Issue Store and the end of CLOSING (R135, R163) -/

/-- The head request either starts a store write with the next number, or is answered UNRECORDED. -/
theorem State.serveHead_cases (s : State) (l : LaneId) (rest : List LaneId) :
    (s.store.status = .ready ∧ s.store.storedNumber < Config.max32
        ∧ s.serveHead l rest = { s with store := { s.store with
            requests := rest
            writeInFlight :=
              some { lane := l, number := s.store.storedNumber + 1, laneGone := false } } })
      ∨ (¬ (s.store.status = .ready ∧ s.store.storedNumber < Config.max32)
        ∧ s.serveHead l rest
          = { s with store := { s.store with requests := rest } }.modifyLane l
              (Lane.answer 0 .unrecorded)) := by
  by_cases h : s.store.status = .ready ∧ s.store.storedNumber < Config.max32
  · exact .inl ⟨h.1, h.2, by simp only [State.serveHead, if_pos h]⟩
  · exact .inr ⟨h, by simp only [State.serveHead, if_neg h]⟩

/-- Whatever holds of the part, and is kept by the service of one head request while no write is in flight and the
start-up read has ended, holds after the store has served every request it can. -/
theorem State.serve_induct {P : State → Prop} {s : State} (start : P s)
    (one : ∀ t l rest, P t → t.store.writeInFlight = none → t.store.status ≠ .starting →
      t.store.requests = l :: rest → P (t.serveHead l rest)) : P s.serveAll := by
  suffices h : ∀ n t, P t → P (State.serve n t) from h _ _ start
  intro n
  induction n with
  | zero => exact fun _ h => h
  | succ n ih =>
    intro t ht
    unfold State.serve
    split
    · next l rest hw hs hr => exact ih _ (one t l rest ht hw (by simp [hs]) hr)
    · next l rest hw hs hr => exact ih _ (one t l rest ht hw (by simp [hs]) hr)
    · exact ht

/-- An answer reaches the run and the report-ready flag, and no other block. -/
theorem Lane.answer_frame (number : Nat) (flag : IssueFlag) (x : Lane) :
    (x.answer number flag).tracker = x.tracker ∧ (x.answer number flag).capture = x.capture
      ∧ (x.answer number flag).coverage = x.coverage ∧ (x.answer number flag).defects = x.defects
      ∧ (x.answer number flag).latch = x.latch ∧ (x.answer number flag).run.plan = x.run.plan
      ∧ (x.answer number flag).run.tallies = x.run.tallies := by
  unfold Lane.answer; split <;> simp

/-- CLOSING ends for a lane whose table is empty, and nothing happens otherwise. -/
theorem State.settleClosing_cases (s : State) (l : LaneId) :
    (¬ ((s.lane l).run.state = .closing ∧ (s.lane l).tracker.records = []) ∧ s.settleClosing l = s)
      ∨ ((s.lane l).run.state = .closing ∧ (s.lane l).tracker.records = []
        ∧ s.settleClosing l
          = { s.modifyLane l (Lane.enterIssuing s.store.unitNumber) with
              store := { s.store with requests := s.store.requests ++ [l] } }.serveAll) := by
  by_cases h : (s.lane l).run.state = .closing ∧ (s.lane l).tracker.records = []
  · exact .inr ⟨h.1, h.2, by simp only [State.settleClosing, if_pos h]; rfl⟩
  · exact .inl ⟨h, by simp only [State.settleClosing, if_neg h]⟩

/-- A changed record retires when it has its completion and all its results, and otherwise goes back in its place. -/
theorem State.enterRecord_cases (s : State) (l : LaneId) (r : Record) :
    (r.mayRetire = true ∧ s.enterRecord l r = s.retire l r)
      ∨ (r.mayRetire = false
        ∧ s.enterRecord l r = s.modifyLane l (fun x => x.modifyTracker (fun t => t.replace r))) := by
  cases h : r.mayRetire
  · exact .inr ⟨rfl, by simp [State.enterRecord, h]⟩
  · exact .inl ⟨rfl, by simp [State.enterRecord, h]⟩

/-! ## Seconds and expiries (R134, R135, R142) -/

/-- A lane's timer that is due expires, the stall timer or the drain timer, and otherwise nothing happens. -/
theorem State.expire_cases (s : State) (l : LaneId) :
    ((s.lane l).stallDue = true ∧ s.expire l = s.expireStall l)
      ∨ ((s.lane l).stallDue = false ∧ (s.lane l).drainDue = true ∧ s.expire l = s.expireDrain l)
      ∨ ((s.lane l).stallDue = false ∧ (s.lane l).drainDue = false ∧ s.expire l = s) := by
  cases h : (s.lane l).stallDue
  · cases k : (s.lane l).drainDue <;> simp [State.expire, h, k]
  · simp [State.expire, h]

/-- A second that brings no timer to its limit is counted, and does nothing else. -/
theorem State.second_of_none_due (first : List LaneId) (s : State)
    (h : ∀ l, (s.lane l).countSecond.stallDue = false ∧ (s.lane l).countSecond.drainDue = false) :
    s.second first = s.countSecond := by
  have e (l : LaneId) : s.countSecond.expire l = s.countSecond := by
    simp [State.expire, (h l).1, (h l).2]
  have f (order : List LaneId) : order.foldl State.expire s.countSecond = s.countSecond := by
    induction order with
    | nil => rfl
    | cons l rest ih => rw [List.foldl_cons, e, ih]
  exact f _

/-- What every expiry keeps, and the count of a second establishes, holds after the second. -/
theorem State.second_induct {P : State → Prop} (first : List LaneId) (s : State) (start : P s.countSecond)
    (step : ∀ t l, P t → P (t.expire l)) : P (s.second first) := by
  have f (order : List LaneId) : ∀ t, P t → P (order.foldl State.expire t) := by
    induction order with
    | nil => exact fun t h => h
    | cons l rest ih => exact fun t h => ih _ (step t l h)
  exact f _ _ start

/-- What every second keeps, `n` seconds keep. -/
theorem State.seconds_induct {P : State → Prop} (step : ∀ t, P t → P (t.second [])) (n : Nat) :
    ∀ s, P s → P (s.seconds n) := by
  induction n with
  | zero => exact fun s h => h
  | succ n ih => exact fun s h => ih _ (step s h)

/-! ## Data sectors (R6, R14, R23, R45, R46, R62) -/

/-- Words put on the link and formed again are the same words. -/
@[simp] theorem linkWords_linkBytes (words : List Word) : linkWords (linkBytes words) = words := by
  induction words with
  | nil => rfl
  | cons w rest ih =>
    have e : wordOfBytes (w.toNat % 256) (w.toNat / 256 % 256) (w.toNat / 65536 % 256)
        (w.toNat / 16777216 % 256) = w := by
      apply BitVec.eq_of_toNat_eq
      have := w.isLt
      simp only [wordOfBytes, BitVec.toNat_ofNat]
      omega
    have h : linkBytes (w :: rest) = bytesOfWord w ++ linkBytes rest := rfl
    simp [h, bytesOfWord, byteOf, linkWords, ih, e]

/-- A DATA event taken has one of four outcomes: the report stands in for the sector, or the sector passes
uncaptured, is captured into the head of the free list, or is stopped at the boundary. -/
theorem State.takeData_cases (s : State) (l : LaneId) (tag : Tag) (d : Direction) (index : Nat)
    (bytes : List Byte) :
    (∃ report, (s.lane l).substitution d tag index = some report
        ∧ s.takeData l tag d index bytes
          = ((s.forward l d (.sector tag index (linkBytes report))).passSector l).modifyLane l
              (fun x => x.modifyTap (fun t => { t with reportReady := false })))
      ∨ ((s.lane l).substitution d tag index = none ∧ (s.lane l).captureEntry tag d index = none
        ∧ s.takeData l tag d index bytes = (s.forward l d (.sector tag index bytes)).passSector l)
      ∨ (∃ r b rest, (s.lane l).substitution d tag index = none
        ∧ (s.lane l).captureEntry tag d index = some r ∧ s.pool.freeBuffers = b :: rest
        ∧ s.takeData l tag d index bytes
          = ((s.modifyLane l (fun x => x.modifyTracker (fun k => k.replace r))).forward l d
              (.sector tag index bytes)).capture l
              { tag := tag, index := index, direction := d, buffer := b, words := linkWords bytes } rest)
      ∨ (∃ r, (s.lane l).substitution d tag index = none
        ∧ (s.lane l).captureEntry tag d index = some r ∧ s.pool.freeBuffers = []
        ∧ s.takeData l tag d index bytes
          = (s.modifyLane l (fun x => x.modifyTracker (fun k => k.replace r))).stopSector l
              { tag := tag, direction := d, index := index }) := by
  cases hs : (s.lane l).substitution d tag index with
  | some report => exact .inl ⟨report, rfl, by simp [State.takeData, hs]⟩
  | none =>
    cases hc : (s.lane l).captureEntry tag d index with
    | none => exact .inr (.inl ⟨rfl, rfl, by simp [State.takeData, hs, hc]⟩)
    | some r =>
      cases hb : s.pool.freeBuffers with
      | cons b rest => exact .inr (.inr (.inl ⟨r, b, rest, rfl, rfl, rfl, by
          simp [State.takeData, hs, hc, hb]⟩))
      | nil => exact .inr (.inr (.inr ⟨r, rfl, rfl, rfl, by simp [State.takeData, hs, hc, hb]⟩))

end Sys2Proof.Machine
end

