-- ==== Sys2Proof/Laws/Sound.lean ====
section
/-! SUPPORT. `Sound` as a check that runs: for witnesses. -/

namespace Sys2Proof.Safety

open Sys2Proof.Machine

/-- The laws of one lane, checked. -/
def laneCheck (x : Lane) : Bool :=
  decide (QueueLaw x) && decide (TableLaw x.tracker) && decide (MapLaw x) && decide (DefectLaw x) &&
    decide (RunLaw x) && decide (PresenceLaw x) && decide (VerdictLaw x) && decide (CertificateLaw x)

theorem laneLaw_of_laneCheck {x : Lane} (h : laneCheck x = true) : LaneLaw x := by
  simpa only [laneCheck, Bool.and_eq_true, decide_eq_true_eq, and_assoc] using h

/-- Every law, checked. -/
def soundCheck (s : State) : Bool :=
  decide (PoolLaw s) && decide (NumbersLaw s) && decide (IssueLaw s) &&
    (List.finRange 8).all (fun l => laneCheck (s.lane l) && decide (JobLaw s l))

theorem sound_of_soundCheck {s : State} (h : soundCheck s = true) : Sound s := by
  simp only [soundCheck, Bool.and_eq_true, decide_eq_true_eq, List.all_eq_true, List.mem_finRange,
    true_implies] at h
  exact ⟨h.1.1.1, h.1.1.2, h.1.2, fun l => ⟨laneLaw_of_laneCheck (h.2 l).1, (h.2 l).2⟩⟩

end Sys2Proof.Safety
end

