-- ==== Sys2Proof/WellFormed.lean ====
section
/-! DEFINITION. What a link can carry: the ranges R5, R6 and R7 give the operands of a command. The meanings
run on every operand; statements about the link's own traffic use this predicate. -/

namespace Sys2Proof

/-- The start LBA and count of a command frame (R5). -/
def addressWellFormed (start count : Nat) : Bool :=
  decide (start < Config.lbaCount) && decide (1 ≤ count) && decide (count ≤ Config.maxCommandCount)

/-- The bytes of a data sector: 512 or 4096 of them (R2, R6). -/
def sectorWellFormed (bytes : List Byte) : Bool :=
  decide (bytes.length = 512) || decide (bytes.length = 4096)

/-- The failing LBA of a completion frame (R7). -/
def errorLbaWellFormed (errorLba : Option Nat) : Bool :=
  match errorLba with
  | none => true
  | some e => decide (e < Config.lbaCount)

/-- A command whose operands a link, a supply or a reset input can give. -/
def wellFormed (i : Instr) : Bool :=
  match i with
  | .powerOn => true
  | .rackReset => true
  | .rackResetRelease => true
  | .attach _ _ => true
  | .identifyNewFormat _ _ _ => true
  | .detach _ _ => true
  | .linkReset _ _ => true
  | .commandRead _ _ start count => addressWellFormed start count
  | .commandWrite _ _ start count => addressWellFormed start count
  | .commandFlush _ _ => true
  | .commandDiscard _ _ start count => addressWellFormed start count
  | .commandOther _ _ => true
  | .data _ _ _ _ bytes => sectorWellFormed bytes
  | .complete _ _ _ errorLba => errorLbaWellFormed errorLba
  | .jobCompletion => true
  | .waitingSectorStart _ bytes => sectorWellFormed bytes
  | .stallExpiry _ => true
  | .drainExpiry _ => true
  | .startUpReadEnd _ => true
  | .storeWriteEnd _ => true
  | .powerLoss _ => true

end Sys2Proof
end

