-- ==== Sys2Proof/Tests/Slice0.lean ====
section
/-! SUPPORT. Tests: the smoke test of `WellFormed`, one-step tests with values from the manual's worked cases, and for
each statement with hypotheses a state and operands that meet them (`witness_…`, one for each clause). -/

namespace Sys2Proof.Tests

set_option Elab.async false
set_option linter.unusedVariables false

open Sys2Proof Sys2Proof.Machine Sys2Proof.Safety

/-! ## The smoke test of WellFormed: for each check a command that it refuses -/

theorem test_wellFormed_accepts : wellFormed (.commandWrite 7 31 281474976710655 65536) = true := by decide

theorem test_wellFormed_refuses_start_lba :
    wellFormed (.commandRead 0 0 281474976710656 1) = false ∧
    wellFormed (.commandWrite 0 0 281474976710656 1) = false ∧
    wellFormed (.commandDiscard 0 0 281474976710656 1) = false := by decide

theorem test_wellFormed_refuses_count_zero :
    wellFormed (.commandRead 0 0 5 0) = false ∧ wellFormed (.commandWrite 0 0 5 0) = false ∧
    wellFormed (.commandDiscard 0 0 5 0) = false := by decide

theorem test_wellFormed_refuses_count_above_65536 :
    wellFormed (.commandRead 0 0 5 65537) = false ∧ wellFormed (.commandWrite 0 0 5 65537) = false ∧
    wellFormed (.commandDiscard 0 0 5 65537) = false := by decide

theorem test_wellFormed_refuses_sector_length :
    wellFormed (.data 0 0 .towardDrive 0 (List.replicate 511 0)) = false ∧
    wellFormed (.data 0 0 .towardDrive 0 (List.replicate 128 0)) = false ∧
    wellFormed (.waitingSectorStart 0 []) = false := by decide +kernel

theorem test_wellFormed_refuses_error_lba :
    wellFormed (.complete 0 0 .error (some 281474976710656)) = false := by decide

/-! ## Small states -/

/-- The state after a command. -/
def after (i : Instr) (s : State) : State :=
  match exec i s with
  | .next t => t
  | .fault _ => s
  | .refused _ => s

/-- Supply present, the start-up read over, no drive. -/
def ready : State :=
  { State.reset with store := { State.reset.store with status := .ready, read := .noRead } }

/-- The same with a store that could not read its number. -/
def degraded : State := { ready with store := { ready.store with status := .degraded } }

/-- A 512-byte drive, no plan. -/
def idleLane : Lane := Lane.attach .bytes512 .initial

/-- A plan of one FILL pass over LBAs 0 to 9. -/
def fillPlan : Plan where
  runId := 1000
  first := 0
  last := 9
  size := .bytes512
  flush := false
  pacing := 1
  stall := 0
  allowance := 0
  actions := Vector.replicate 7 .note
  passes := [⟨.fill, .none, 7, 0, 0, 0⟩]

/-- The same with flush flag 1. -/
def flushPlan : Plan := { fillPlan with flush := true }

/-- A plan of one pass with a verify mode, and for SAMPLED stride 4 and phase 3. -/
def verifyPlan (v : VerifyMode) : Plan := { fillPlan with passes := [⟨.fill, v, 7, 0, 4, 3⟩] }

/-- A plan whose seven actions are all `a`. -/
def actionPlan (a : Action) : Plan := { fillPlan with actions := Vector.replicate 7 a }

/-- A lane whose run of plan `p` has just begun, the plan taken at LBA 500. -/
def runningLane (p : Plan) : Lane := idleLane.acceptPlan p 500

/-- A record with pass 1 attempt 1 as its stamp. -/
def record (tag : Tag) (o : Operation) (entries : List Entry) : Record where
  tag := tag
  operation := o
  stamp := some ⟨1, 1⟩
  entries := entries
  marker := none
  outstanding := entries.count .pending
  completion := none

/-- A lane with these records. -/
def withRecords (rs : List Record) (x : Lane) : Lane :=
  x.modifyTracker (fun t => { t with records := rs })

/-- A lane with these extents. -/
def withExtents (m : List Extent) (x : Lane) : Lane :=
  { x with coverage := { x.coverage with extents := m }, tracker := { x.tracker with epoch := 3 } }

/-- A lane with these defect entries. -/
def withDefects (es : List DefectEntry) (x : Lane) : Lane :=
  { x with defects := ⟨es, 0, (es.map DefectEntry.count).sum⟩ }

/-- A lane at another attempt. -/
def atAttempt (n : Nat) (x : Lane) : Lane :=
  x.modifyRun (fun c => { c with current := some ⟨1, n⟩ })

/-- A lane in SUSPENDED. -/
def suspended (x : Lane) : Lane := x.modifyRun (fun c => { c with state := .suspended })

/-- A lane that is CLOSING with verdict HALTED, with records pending. -/
def closingLane (rs : List Record) : Lane := (withRecords rs (runningLane fillPlan)).halt

/-- A lane in ISSUING. -/
def issuingLane : Lane := (runningLane fillPlan).halt.enterIssuing 0

/-- A lane in ISSUED with certificate number 1. -/
def issuedLane : Lane := issuingLane.answer 1 .recorded

/-- A lane in REJECTED at LBA 500. -/
def rejectedLane : Lane := idleLane.refusePlan .check 0 .bytes512 [] 500

/-- `ready` with lane 0 as given. -/
def lane0 (x : Lane) : State := ready.setLane 0 x

/-- `ready` with lane 0 in ISSUED, its number stored. -/
def issued0 (x : Lane) : State :=
  { lane0 x with store := { ready.store with storedNumber := 1 } }

/-- `ready` with lane 0 in ISSUING, its write of number `n` in flight, and lane 1 in ISSUING behind it. -/
def issuing01 (n : Nat) : State :=
  { (lane0 issuingLane).setLane 1 issuingLane with
    store :=
      { ready.store with
        storedNumber := n - 1
        requests := [1]
        writeInFlight := some ⟨0, n, false⟩ } }

/-- The part with buffer 47 in the engine, for a job of tag 0 of lane `l`, and buffer 46 on. -/
def engaged (l : LaneId) (words : List Word) (context : Option GrantContext) (s : State) : State :=
  { s with
    pool := { s.pool with freeBuffers := (List.finRange 48).take 47 }
    engine := ⟨l, some ⟨l, ⟨0, 0, .towardDrive, 47, words⟩, context, false⟩⟩ }

/-- A running lane with one WRITE of 1 sector, whose data is in the engine. -/
def busyLane : Lane := withRecords [record 0 (.write 600 1) [.pending]] (runningLane fillPlan)

/-- `ready` with the engine at a job of lane 7, and lane 0 as given. -/
def busy0 (x : Lane) : State := engaged 7 [] none ((lane0 x).setLane 7 busyLane)

/-- A running lane with `n` jobs of tag 0 in its queue, in buffers `b` on. -/
def queueLane (b n : Nat) : Lane :=
  let x := withRecords [record 0 (.write 600 n) (List.replicate n .pending)] (runningLane fillPlan)
  { x with
    tap := { x.tap with trigger := decide (8 ≤ n) }
    capture :=
      ⟨(List.range n).map (fun i => ⟨0, i, .towardDrive, Fin.ofNat 48 (b + i), []⟩), none, 1⟩ }

/-- No FREE buffer: eight jobs in each of lanes 1 to 5, `k` in lane 6, one of lane 7 in the engine. With `k` at 7 that is all
48, with 6 it leaves buffer 46 to lane 0. -/
def full0 (k : Nat) (x : Lane) (list : List LaneId) : State :=
  { (((((((lane0 x).setLane 1 (queueLane 0 8)).setLane 2 (queueLane 8 8)).setLane 3 (queueLane 16 8)).setLane 4
      (queueLane 24 8)).setLane 5 (queueLane 32 8)).setLane 6 (queueLane 40 k)).setLane 7 busyLane with
    pool := ⟨[], list⟩
    engine := ⟨7, some ⟨7, ⟨0, 0, .towardDrive, 47, []⟩, none, false⟩⟩ }

/-- A lane with a sector of tag 2 stopped at the boundary, without or with a reserved buffer, behind one job of the same
command in buffer 46 or alone. -/
def waitingLane (behind : Bool) (reserved : Option BufferId) : Lane :=
  let x := withRecords
    [record 2 (.write 0 (if behind then 2 else 1)) (List.replicate (if behind then 2 else 1) .pending)]
    (runningLane fillPlan)
  { x with
    tap :=
      { x.tap with
        waiting := some ⟨2, .towardDrive, if behind then 1 else 0⟩
        poolReason := reserved.isNone }
    capture := ⟨if behind then [⟨2, 0, .towardDrive, 46, []⟩] else [], reserved, 1⟩ }

/-- `waitingLane` behind a job, with buffer 45 reserved. -/
def reserved0 : State :=
  { busy0 (waitingLane true (some 45)) with pool := ⟨(List.finRange 48).take 45, []⟩ }

/-- `waitingLane` alone, with buffer 46 reserved and the engine free. -/
def reservedFree0 : State :=
  { lane0 (waitingLane false (some 46)) with pool := ⟨(List.finRange 48).filter (fun b => decide (b ≠ 46)), []⟩ }

/-- A running lane with `n` READ records, of tags 0 on. -/
def tableLane (n : Nat) : Lane :=
  withRecords ((List.range n).map (fun i => record (Fin.ofNat 32 i) (.read 0 1) [.notCaptured])) (runningLane fillPlan)

/-! ## Expected content (the manual's worked cases in Expected Content) -/

/-- The passes of the worked cases: STREAM with seed 5, INVERT, INVERT, PAIR of 0x55555555 and 0xAAAAAAAA. -/
def workedPasses : List PassDef :=
  [⟨.stream, .none, 5, 0, 0, 0⟩, ⟨.invert, .none, 0, 0, 0, 0⟩, ⟨.invert, .none, 0, 0, 0, 0⟩,
    ⟨.pair, .none, 0x55555555, 0xAAAAAAAA, 0, 0⟩]

/-- "STREAM at a low LBA". -/
theorem test_stream_low_lba :
    expectedWord workedPasses 1 2 0 = some 1300381464 ∧ expectedWord workedPasses 1 2 1 = some 3986210361 ∧
    expectedWord workedPasses 1 2 2 = some 3274848422 := by decide +kernel

/-- "STREAM at the top of the LBA range". -/
theorem test_stream_top_lba : expectedWord workedPasses 1 281474976710655 0 = some 1497810935 := by
  decide +kernel

/-- "INVERT chains". -/
theorem test_invert_chain :
    expectedWord workedPasses 2 2 1 = some 308756934 ∧ expectedWord workedPasses 2 3 0 = some 197084124 ∧
    expectedWord workedPasses 3 2 0 = some 1300381464 := by decide +kernel

/-- The example after R62: a word of value 0x6A4E31D7 crosses the link as 0xD7, 0x31, 0x4E, 0x6A. -/
theorem test_link_byte_order :
    linkBytes [0x6A4E31D7] = [0xD7, 0x31, 0x4E, 0x6A] ∧ linkWords [0xD7, 0x31, 0x4E, 0x6A] = [0x6A4E31D7] := by
  decide

/-! ## Samples (the worked figures of Defects and Completeness) -/

theorem test_sample_figures :
    sampleCount 64 10 1000 0 300 = 6 ∧ sampleCount 64 10 1000 0 457 = 8 ∧
    sampleCount 64 10 1000 458 458 = 1 ∧ sampleCount 64 10 1000 459 999 = 9 ∧
    sampleCount 64 10 1000 11 73 = 0 ∧ totalSamples 64 10 1000 = 18 := by decide

/-! ## The Coverage Map ("a map at 64 extents") -/

/-- The map before step 1. -/
def fullMap : Coverage := ⟨(List.range 64).map (fun i => ⟨100 * i, 100 * i + 49, .written⟩), 0⟩

/-- Step 1: a 65th extent is refused and its 10 sectors are counted uncredited. -/
theorem test_map_refuses_65th_extent :
    (fullMap.writeCredit false 0 (List.range' 6400 10)).coverage = { fullMap with uncredited := 10 } := by
  decide +kernel

/-- Step 2: the gap between two extents filled joins the three. -/
theorem test_map_joins_extents :
    (fullMap.writeCredit false 0 (List.range' 50 50)).coverage.extents.head? = some ⟨0, 149, .written⟩ := by
  decide +kernel

/-- Step 5, on the full map: the removal of [320, 329] is widened to the whole of [300, 349]. -/
theorem test_map_widens_removal :
    conditionOf (removeCredit (List.range' 320 10) fullMap.extents) 300 = none ∧
    conditionOf (removeCredit (List.range' 320 10) fullMap.extents) 400 = some .written := by decide +kernel

/-- "Flush epochs and read-back", step 6: a write between WRITTEN and CACHED merges with the CACHED extent. -/
theorem test_map_keeps_states_apart :
    (Coverage.writeCredit true 1 (List.range' 800 50)
      ⟨[⟨0, 799, .written⟩, ⟨850, 999, .cached 1⟩], 0⟩).coverage.extents =
    [⟨0, 799, .written⟩, ⟨800, 999, .cached 1⟩] := by decide +kernel

/-! ## The Defect List ("a list at its capacity") -/

/-- The entries before step 1. -/
def workedEntries : List DefectEntry :=
  (List.range 22).map (fun i => ⟨1000 * (i + 1), 1, .mismatch, 1⟩) ++
    [⟨30000, 1, .readFail, 2⟩, ⟨30002, 1, .readFail, 2⟩]

/-- Step 1: no room. Step 2: the gap between two entries closes, and a place becomes free. -/
theorem test_list_at_capacity :
    listSector 50000 .readFail 2 workedEntries = none ∧
    (listSector 30001 .readFail 2 workedEntries).map (fun es => (es.length, es.getLast?)) =
      some (23, some ⟨30000, 3, .readFail, 2⟩) := by decide +kernel

/-! ## Markers, plans and reports -/

/-- The plan of "validating a plan", for a phase and an action of STALL, with its check word. -/
def workedPlan (phase stallAction : Nat) : List Word :=
  let w : List Word := [Config.signature0, Config.signature1, 257, 1000, 0, 0, 0, 999999, 0,
    BitVec.ofNat 32 (256 * 3 + 65536 + 16777216 * 5), BitVec.ofNat 32 (10 + 65536 * 9), 0, BitVec.ofNat 32 stallAction,
    BitVec.ofNat 32 (2 + 256), 5, 0, BitVec.ofNat 32 (64 + 65536 * phase), 3, 0, 0, 0, 1, 0x55555555, 0xAAAAAAAA, 0,
    0xFFFFFFC8, 0, 0, 0]
  w ++ [-(sumWords w), 0, 0]

/-- "Validating a plan": VERIFY before ACTION, the fourth definition not examined. Mended as the text says, it passes, with
pacing and stall selection clamped. -/
theorem test_worked_plan :
    planFailure true .bytes512 (workedPlan 64 7) = some .verify ∧
    planFailure true .bytes512 (workedPlan 10 1) = none ∧
    planFailure false .bytes512 (workedPlan 10 1) = some .notReady ∧
    (decodePlan .bytes512 (workedPlan 10 1)).pacing = 3 ∧ (decodePlan .bytes512 (workedPlan 10 1)).stall = 7 := by
  decide +kernel

/-- "Markers on one lane": the check words of HALT and RELEASE with run id 1000. -/
theorem test_control_check_words :
    validControlMarker [Config.signature0, Config.signature1, 259, 1000, 0, 0, 0, 4187743878] = true ∧
    validControlMarker [Config.signature0, Config.signature1, 260, 1000, 0, 0, 0, 4187743877] = true := by
  decide +kernel

/-- "The rejection report of a refused plan": its check word. -/
theorem test_rejection_report :
    (HeldReport.rejection ⟨.verify, 12#32 ++ 5000123#32, .bytes512, 1000⟩).words.map
      (fun w => (w[2]?, w[3]?, w[4]?, w[127]?)) =
    some (some 386203912, some 5000123, some 12, some 3796540090) := by decide +kernel

/-! ## One step of each command -/

/-- R179. -/
theorem test_powerOn : (after .powerOn (issuing01 7)).store.read = .inFlight ∧
    (after .powerOn (issuing01 7)).store.storedNumber = 6 := by decide +kernel

/-- R180: the write in flight goes on. -/
theorem test_rackReset : (after .rackReset (issuing01 7)).store.writeInFlight = some ⟨0, 7, false⟩ ∧
    (after .rackReset (issuing01 7)).store.requests = [] := by decide +kernel

/-- R180: the start-up read waits for the write in flight. -/
theorem test_rackResetRelease :
    (after .rackResetRelease (after .rackReset (issuing01 7))).store.read = .deferred := by decide +kernel

/-- R161, remark. -/
theorem test_powerLoss : (after (.powerLoss true) (issuing01 7)).store.storedNumber = 7 ∧
    (after (.powerLoss false) (issuing01 7)).store.storedNumber = 6 := by decide +kernel

/-- R161. -/
theorem test_startUpReadEnd : (after (.startUpReadEnd false) State.reset).store.status = .degraded := by
  decide +kernel

/-- "The store serves five lanes", step 4: the answer, and the next write. -/
theorem test_storeWriteEnd :
    issueNumberOf ((after (.storeWriteEnd true) (issuing01 9001)).lane 0) = 9001 ∧
    (after (.storeWriteEnd true) (issuing01 9001)).store.writeInFlight = some ⟨1, 9002, false⟩ := by decide +kernel

/-- R2. -/
theorem test_attach : ((after (.attach 0 512) ready).lane 0).run.state = .idle ∧
    ((after (.attach 0 520) ready).lane 0).run.state = .detached := by decide +kernel

/-- R2. -/
theorem test_identifyNewFormat :
    ((after (.identifyNewFormat 0 4096 false) (lane0 idleLane)).lane 0).tap.sectorSize = some .bytes4096 := by
  decide +kernel

/-- "The store serves five lanes", step 5, and R177. -/
theorem test_detach : (after (.detach 1 false) (issuing01 9002)).store.requests = [] ∧
    (after (.detach 1 false) (issuing01 9002)).lamp 1 = .fail := by decide +kernel

/-- "A lane reset that feeds the waiting list": the first buffer freed goes to the lane at the head of the list. -/
theorem test_linkReset :
    ((after (.linkReset 1 false) (full0 6 (waitingLane true none) [0])).lane 0).capture.reservation = some 0 ∧
    ((after (.linkReset 1 false) (full0 6 (waitingLane true none) [0])).lane 0).tap.poolReason = false := by
  decide +kernel

/-- R19: the stamp. -/
theorem test_commandRead :
    ((after (.commandRead 0 4 5 2) (lane0 (runningLane fillPlan))).lane 0).tracker.records =
      [record 4 (.read 5 2) [.notCaptured, .notCaptured]] := by decide +kernel

/-- R13: a WRITE empties its tag's slot. -/
theorem test_commandWrite :
    ((after (.commandWrite 0 4 5 2) (lane0 (idleLane.setSlot 4 (some ⟨1, 1⟩)))).lane 0).tap.readTable[4] = none := by
  decide +kernel

/-- "Flush epochs and read-back", step 3. -/
theorem test_commandFlush : ((after (.commandFlush 0 3) (lane0 (runningLane flushPlan))).lane 0).tracker.epoch = 1 := by
  decide +kernel

/-- R21: a full table counts the command untracked. -/
theorem test_commandDiscard :
    ((after (.commandDiscard 0 20 5 2) (lane0 (tableLane 16))).lane 0).tracker.untracked = 1 := by decide +kernel

/-- R22, R135: the last record of a CLOSING lane abandoned by its tag's reuse ends CLOSING. -/
theorem test_commandOther :
    ((after (.commandOther 0 3) (lane0 (closingLane [record 3 (.write 0 1) [.notCaptured]]))).lane 0).run.state =
      .issuing := by decide +kernel

/-- "A lane held twice", step 2: no buffer is free. -/
theorem test_data_stops :
    ((after (.data 0 3 .towardDrive 0 [])
      (full0 7 (withRecords [record 3 (.write 0 1) [.notCaptured]] (runningLane fillPlan)) [])).lane 0).tap.waiting =
      some ⟨3, .towardDrive, 0⟩ := by decide +kernel

/-- R14: a read of the anchor returns the report, and of the sector after it the drive's own. -/
theorem test_data_substitutes :
    ((after (.data 0 3 .towardStation 0 [7]) (issued0 (issuedLane.setSlot 3 (some ⟨500, 2⟩)))).link 0).toStation =
      [.sector 3 0 (linkBytes ((issuedLane.run.held.words).getD []))] ∧
    ((after (.data 0 3 .towardStation 1 [7]) (issued0 (issuedLane.setSlot 3 (some ⟨500, 2⟩)))).link 0).toStation =
      [.sector 3 1 [7]] := by decide +kernel

/-- A record that retires: a WRITE of LBAs 2 and 3, the first MATCH and the second MISMATCH (R29). -/
theorem test_complete_credits_by_entry :
    ((after (.complete 0 3 .good none)
      (lane0 (withRecords [record 3 (.write 2 2) [.compared .matched, .compared .mismatched]]
        (runningLane fillPlan)))).lane 0).coverage.extents = [⟨2, 2, .written⟩] := by decide +kernel

/-- R28: an ERROR that places no sector has no good part. -/
theorem test_complete_unplaced_error :
    ((after (.complete 0 3 .error none)
      (lane0 (withExtents [⟨0, 9, .written⟩] (withRecords
        [record 3 (.write 2 2) [.compared .matched, .compared .matched]] (runningLane fillPlan))))).lane
      0).coverage.extents = [⟨0, 1, .written⟩, ⟨4, 9, .written⟩] := by decide +kernel

/-- "The round robin": the search begins after the last-granted lane. -/
theorem test_jobCompletion :
    (after .jobCompletion (full0 7 idleLane [])).engine.lastGranted = 1 ∧
    (after .jobCompletion (full0 7 idleLane [])).pool.freeBuffers = [47] := by decide +kernel

/-- "A lane held twice", step 4: the waiting sector takes the reserved buffer. Its word is formed as in the example after
R62. -/
theorem test_waitingSectorStart :
    ((after (.waitingSectorStart 0 [0xD7, 0x31, 0x4E, 0x6A]) reserved0).lane 0).capture.queue =
      [⟨2, 0, .towardDrive, 46, []⟩, ⟨2, 1, .towardDrive, 45, [0x6A4E31D7]⟩] := by decide +kernel

/-- "A stall and a restart": the attempt rises and the map is cleared. -/
theorem test_stallExpiry :
    ((after (.stallExpiry 0) (lane0 (withExtents [⟨0, 3, .written⟩]
      (runningLane (actionPlan .restart))))).lane 0).run.current = some ⟨1, 2⟩ ∧
    ((after (.stallExpiry 0) (lane0 (withExtents [⟨0, 3, .written⟩]
      (runningLane (actionPlan .restart))))).lane 0).coverage.extents = [] := by decide +kernel

/-- A timer that counts up to its limit expires in that second, with no command (R142). -/
theorem test_second_expires :
    (((lane0 ((runningLane fillPlan).modifyRun (fun c => { c with stallTimer := 4 }))).second []).lane 0).run.tallies[4] =
      1 ∧
    (((lane0 ((runningLane fillPlan).modifyRun (fun c => { c with stallTimer := 4 }))).second []).lane 0).run.stallTimer =
      0 := by decide +kernel

/-- "Close, drain, issue and void": the record left is abandoned and counted untracked. -/
theorem test_drainExpiry :
    ((after (.drainExpiry 0) (lane0 (closingLane [record 3 (.write 0 1) [.notCaptured]]))).lane 0).tracker.untracked =
      1 := by decide +kernel

/-! ## Witnesses: for each statement, and each of its clauses, a state and operands that meet its hypotheses -/

/-- The words of a control marker of kind `kind` with run id 1000. -/
def controlWords (kind : Nat) : List Word :=
  let w := [Config.signature0, Config.signature1, BitVec.ofNat 32 (kind + 256), 1000, 0, 0, 0]
  w ++ [-(sumWords w)]

/-- The words of a plan sector of four passes, FILL, INVERT, INVERT and PAIR, over LBAs 0 to 9, with check word. -/
def planWords : List Word :=
  let w := [Config.signature0, Config.signature1, 257, 1000, 0, 0, 0, 9, 0, 1024, 0, 0, 0,
    0, 5, 0, 0, 3, 0, 0, 0, 3, 0, 0, 0, 1, 0x55555555, 0xAAAAAAAA, 0]
  w ++ [-(sumWords w), 0, 0]

/-- A WRITE of one sector at LBA 500 that carried the marker `w`. -/
def markerRecord (kind : Nat) (w : List Word) : Record :=
  { record 3 (.write 500 1) [.marker kind .matched] with marker := some ⟨0, w⟩ }

/-- A WRITE of LBAs 8 and 9 whose second sector was a RELEASE marker. -/
def markerIn8 : Record :=
  { record 3 (.write 8 2) [.compared .matched, .marker 4 .matched] with marker := some ⟨1, controlWords 4⟩ }

/-- Lane 0 RUNNING with `stall` seconds on the stall timer, and lane 3 CLOSING with `drain` seconds on the drain timer. -/
def stallAndDrain (stall drain : Nat) : State :=
  (lane0 ((runningLane fillPlan).modifyRun (fun c => { c with stallTimer := stall }))).setLane 3
    ((closingLane [record 3 (.write 0 1) [.notCaptured]]).modifyRun (fun c => { c with drainTimer := drain }))

/-- The same two seconds before both limits, with a RUNNING lane held and an ISSUED lane. -/
def clocks : State := ((stallAndDrain 3 3).setLane 2 (queueLane 0 8)).setLane 4 issuedLane

theorem witness_EmptyQueueLetsASecondPass_no_expiry : ∃ (s : State),
    s.pending = [] ∧ (∀ l : LaneId, NoExpiryWithin 1 (s.lane l)) ∧ ((s.lane 0).run.state = .running ∧ (s.lane
    2).tap.trigger = true ∧ (s.lane 3).run.state = .closing ∧ (s.lane 4).run.state = .issued) :=
  ⟨clocks, by decide +kernel⟩

theorem witness_EmptyQueueLetsASecondPass_two_expiries : ∃ (s : State),
    Sound s ∧ s.pending = [] ∧ (StallWithin 1 (s.lane 0) ∧ DrainWithin 1 (s.lane 3)) :=
  ⟨stallAndDrain 4 4, sound_of_soundCheck (by decide +kernel), by decide +kernel⟩

theorem witness_EmptyQueueLetsASecondPass_lowest_stall : ∃ (s : State) (l : LaneId),
    Sound s ∧ s.pending = [] ∧ (∀ m : LaneId, m < l → NoExpiryWithin 1 (s.lane m)) ∧ (StallWithin 1 (s.lane l)) :=
  ⟨stallAndDrain 4 4, 0, sound_of_soundCheck (by decide +kernel), by decide +kernel⟩

theorem witness_EmptyQueueLetsASecondPass_lowest_drain : ∃ (s : State) (l : LaneId),
    Sound s ∧ s.pending = [] ∧ (∀ m : LaneId, m < l → NoExpiryWithin 1 (s.lane m)) ∧ (DrainWithin 1 (s.lane l)) :=
  ⟨stallAndDrain 3 4, 3, sound_of_soundCheck (by decide +kernel), by decide +kernel⟩

theorem witness_RackResetStartsEveryBlock : ∃ (s : State),
    s.powered = true ∧ (s.store.writeInFlight.isSome = true) :=
  ⟨issuing01 1, by decide +kernel⟩

theorem witness_PowerOnStartsEveryBlock : ∃ (s : State),
    (s.powered = true) :=
  ⟨issuing01 1, by decide +kernel⟩

theorem witness_PowerLossKeepsOneNumber_no_write : ∃ (b : Bool) (s : State),
    (s.store.writeInFlight = none) :=
  ⟨true, ready, by decide +kernel⟩

theorem witness_PowerLossKeepsOneNumber_write_in_flight : ∃ (b : Bool) (s : State),
    (s.store.writeInFlight = some ⟨0, 1, false⟩) :=
  ⟨true, issuing01 1, by decide +kernel⟩

theorem witness_ReleaseBeginsStartUpRead_no_write : ∃ (s : State),
    Sound s ∧ s.powered = true ∧ s.inReset = true ∧ (s.store.writeInFlight = none) :=
  ⟨after .rackReset ready, sound_of_soundCheck (by decide +kernel), by decide +kernel⟩

theorem witness_ReleaseBeginsStartUpRead_write_in_flight : ∃ (s : State),
    Sound s ∧ s.powered = true ∧ s.inReset = true ∧ (s.store.writeInFlight ≠ none) :=
  ⟨after .rackReset (issuing01 1), sound_of_soundCheck (by decide +kernel), by decide +kernel⟩

theorem witness_StartUpReadEndSetsStatus : ∃ (success : Bool) (s : State),
    Sound s ∧ s.store.read = .inFlight :=
  ⟨true, State.reset, sound_of_soundCheck (by decide +kernel), by decide +kernel⟩

theorem witness_StoreWriteAnswersItsLane_next_served : ∃ (success : Bool) (s : State) (w : StoreWrite) (c : Certificate),
    Sound s ∧ storeOpen s = true ∧ s.store.writeInFlight = some w ∧ w.laneGone = false ∧ ((s.lane
    w.lane).run.held = .pending c) ∧ (s.store.requests = [1]) :=
  ⟨true, issuing01 4294967294, ⟨0, 4294967294, false⟩,
    snapshotOf 0 fillPlan ⟨.halted, .halt⟩ (runningLane fillPlan).halt.copyOpenCounts,
    sound_of_soundCheck (by decide +kernel), by decide +kernel⟩

theorem witness_StoreWriteAnswersItsLane_numbers_exhausted : ∃ (success : Bool) (s : State) (w : StoreWrite) (c : Certificate),
    Sound s ∧ storeOpen s = true ∧ s.store.writeInFlight = some w ∧ w.laneGone = false ∧ ((s.lane
    w.lane).run.held = .pending c) ∧ (w.number = 4294967295 ∧ s.store.requests = [1]) :=
  ⟨true, issuing01 4294967295, ⟨0, 4294967295, false⟩,
    snapshotOf 0 fillPlan ⟨.halted, .halt⟩ (runningLane fillPlan).halt.copyOpenCounts,
    sound_of_soundCheck (by decide +kernel), by decide +kernel⟩

theorem witness_StoreWriteAnswersItsLane_write_failed : ∃ (success : Bool) (s : State) (w : StoreWrite) (c : Certificate),
    Sound s ∧ storeOpen s = true ∧ s.store.writeInFlight = some w ∧ w.laneGone = false ∧ ((s.lane
    w.lane).run.held = .pending c) ∧ (s.store.storedNumber = 4294967294) :=
  ⟨false, issuing01 4294967295, ⟨0, 4294967295, false⟩,
    snapshotOf 0 fillPlan ⟨.halted, .halt⟩ (runningLane fillPlan).halt.copyOpenCounts,
    sound_of_soundCheck (by decide +kernel), by decide +kernel⟩

theorem witness_StoreWriteOfGoneLaneAnswersNone_lane_gone : ∃ (success : Bool) (s : State) (w : StoreWrite),
    Sound s ∧ s.store.writeInFlight = some w ∧ (w.laneGone = true ∨ storeOpen s = false) ∧ (w.laneGone = true ∧
    s.store.requests = []) :=
  ⟨true,
    after (.detach 0 false) { lane0 issuingLane with store := { ready.store with writeInFlight := some ⟨0, 1, false⟩ } },
    ⟨0, 1, true⟩, sound_of_soundCheck (by decide +kernel), by decide +kernel⟩

theorem witness_StoreWriteOfGoneLaneAnswersNone_next_served : ∃ (success : Bool) (s : State) (w : StoreWrite),
    Sound s ∧ s.store.writeInFlight = some w ∧ (w.laneGone = true ∨ storeOpen s = false) ∧ (w.laneGone = true ∧
    w.number < 4294967295 ∧ s.store.requests = [1]) :=
  ⟨true, after (.detach 0 false) (issuing01 1), ⟨0, 1, true⟩, sound_of_soundCheck (by decide +kernel),
    by decide +kernel⟩

theorem witness_StoreWriteOfGoneLaneAnswersNone_numbers_exhausted : ∃ (success : Bool) (s : State) (w : StoreWrite),
    Sound s ∧ s.store.writeInFlight = some w ∧ (w.laneGone = true ∨ storeOpen s = false) ∧ (w.number =
    4294967295 ∧ s.store.requests = [1]) :=
  ⟨true, after (.detach 0 false) (issuing01 4294967295), ⟨0, 4294967295, true⟩,
    sound_of_soundCheck (by decide +kernel), by decide +kernel⟩

theorem witness_StoreWriteOfGoneLaneAnswersNone_after_rack_reset : ∃ (success : Bool) (s : State) (w : StoreWrite),
    Sound s ∧ s.store.writeInFlight = some w ∧ (w.laneGone = true ∨ storeOpen s = false) ∧ (s.store.read =
    .deferred) :=
  ⟨true, after .rackResetRelease (after .rackReset (issuing01 1)), ⟨0, 1, false⟩,
    sound_of_soundCheck (by decide +kernel), by decide +kernel⟩

theorem witness_AttachEntersIdle : ∃ (l : LaneId) (s : State),
    s.listening = true ∧ ((s.lane l).tap.sectorSize = none) ∧ ((s.lane l).latch = true) :=
  ⟨0, { ready with lanes := ready.lanes.set 0 { Lane.initial with latch := true } }, by decide +kernel⟩

theorem witness_DetachEmptiesLane : ∃ (l : LaneId) (cut : Bool) (s : State),
    Sound s ∧ s.takesEvents l = true ∧ ((s.lane l).run.state = .issuing) :=
  ⟨0, true, issuing01 1, sound_of_soundCheck (by decide +kernel), by decide +kernel⟩

theorem witness_DetachEmptiesLane_waiting : ∃ (l : LaneId) (cut : Bool) (s : State),
    Sound s ∧ s.takesEvents l = true ∧ (l ∈ s.pool.waitingList) :=
  ⟨0, true, full0 6 (waitingLane true none) [0], sound_of_soundCheck (by decide +kernel), by decide +kernel⟩

theorem witness_NewFormatDetachesThenAttaches_other_format : ∃ (l : LaneId) (format : Nat) (cut : Bool) (s : State) (size : SectorSize),
    s.takesEvents l = true ∧ ((s.lane l).tap.sectorSize = some size) ∧ (¬ (format = 512 ∧ size = .bytes512) ∧ ¬
    (format = 4096 ∧ size = .bytes4096)) :=
  ⟨0, 4096, false, lane0 idleLane, .bytes512, by decide +kernel⟩

theorem witness_NewFormatDetachesThenAttaches_same_format : ∃ (l : LaneId) (format : Nat) (cut : Bool) (s : State) (size : SectorSize),
    s.takesEvents l = true ∧ ((s.lane l).tap.sectorSize = some size) ∧ (format = 512 ∧ size = .bytes512) :=
  ⟨0, 512, false, lane0 idleLane, .bytes512, by decide +kernel⟩

theorem witness_LinkResetAbandonsAndTallies_note : ∃ (l : LaneId) (cut : Bool) (s : State),
    Sound s ∧ (∃ p, (s.lane l).run.plan = some p ∧ p.actions[6] = .note ∧ (s.lane l).run.state = .running) ∧
    s.takesEvents l = true :=
  ⟨0, true,
    lane0 (withExtents [⟨0, 1, .cached 2⟩, ⟨2, 3, .written⟩] (runningLane { actionPlan .note with flush := true })),
    sound_of_soundCheck (by decide +kernel), ⟨{ actionPlan .note with flush := true }, by decide +kernel⟩,
    by decide +kernel⟩

theorem witness_LinkResetAbandonsAndTallies_suspend : ∃ (l : LaneId) (cut : Bool) (s : State),
    Sound s ∧ (∃ p, (s.lane l).run.plan = some p ∧ p.actions[6] = .suspend ∧ (s.lane l).run.state = .running) ∧
    s.takesEvents l = true :=
  ⟨0, true,
    lane0 (withExtents [⟨0, 1, .cached 2⟩, ⟨2, 3, .written⟩] (runningLane { actionPlan .suspend with flush := true })),
    sound_of_soundCheck (by decide +kernel), ⟨{ actionPlan .suspend with flush := true }, by decide +kernel⟩,
    by decide +kernel⟩

theorem witness_LinkResetAbandonsAndTallies_fail : ∃ (l : LaneId) (cut : Bool) (s : State),
    Sound s ∧ (∃ p, (s.lane l).run.plan = some p ∧ p.actions[6] = .fail ∧ (s.lane l).run.state = .running) ∧
    s.takesEvents l = true :=
  ⟨0, true,
    lane0 (withExtents [⟨0, 1, .cached 2⟩, ⟨2, 3, .written⟩] (runningLane { actionPlan .fail with flush := true })),
    sound_of_soundCheck (by decide +kernel), ⟨{ actionPlan .fail with flush := true }, by decide +kernel⟩,
    by decide +kernel⟩

theorem witness_LinkResetAbandonsAndTallies_restart : ∃ (l : LaneId) (cut : Bool) (s : State),
    Sound s ∧ s.takesEvents l = true ∧ ((s.lane l).run.current = some ⟨1, 254⟩) :=
  ⟨0, true, lane0 (atAttempt 254 (runningLane (actionPlan .restart))), sound_of_soundCheck (by decide +kernel),
    by decide +kernel⟩

theorem witness_LinkResetAbandonsAndTallies_restart_at_255 : ∃ (l : LaneId) (cut : Bool) (s : State),
    Sound s ∧ s.takesEvents l = true ∧ ((s.lane l).run.current = some ⟨1, 255⟩) :=
  ⟨0, true, lane0 (atAttempt 255 (runningLane (actionPlan .restart))), sound_of_soundCheck (by decide +kernel),
    by decide +kernel⟩

theorem witness_LinkResetAbandonsAndTallies_closing : ∃ (l : LaneId) (cut : Bool) (s : State),
    Sound s ∧ s.takesEvents l = true ∧ ((s.lane l).run.state = .closing) :=
  ⟨0, true,
    lane0 (withRecords [record 3 (.write 0 1) [.notCaptured]] (withExtents [⟨0, 1, .cached 2⟩] (runningLane flushPlan))).halt,
    sound_of_soundCheck (by decide +kernel), by decide +kernel⟩

theorem witness_LinkResetAbandonsAndTallies_issued : ∃ (l : LaneId) (cut : Bool) (s : State),
    Sound s ∧ s.takesEvents l = true ∧ ((s.lane l).run.state = .issued) :=
  ⟨0, true, issued0 issuedLane, sound_of_soundCheck (by decide +kernel), by decide +kernel⟩

theorem witness_AbsentLaneOnlyForwards_absent : ∃ (l : LaneId) (s : State),
    s.powered = true ∧ s.takesEvents l = false ∧ ((s.lane l).tap.sectorSize = none) :=
  ⟨0, ready, by decide +kernel⟩

theorem witness_AbsentLaneOnlyForwards_rack_reset : ∃ (l : LaneId) (s : State),
    s.powered = true ∧ s.takesEvents l = false ∧ (s.inReset = true) :=
  ⟨0, after .rackReset ready, by decide +kernel⟩

theorem witness_TrackedCommandOpensRecord : ∃ (l : LaneId) (tag : Tag) (start count : Nat) (s : State),
    s.takesEvents l = true ∧ ¬ tagPending tag (s.lane l) ∧ ((s.lane l).tracker.records.length < 16) ∧ ((s.lane
    l).tracker.records.length = 15) :=
  ⟨0, 15, 281474976710655, 65536, lane0 (tableLane 15), by decide +kernel⟩

theorem witness_FlushTakesFlushNumber : ∃ (l : LaneId) (tag : Tag) (s : State),
    Sound s ∧ s.takesEvents l = true ∧ ¬ tagPending tag (s.lane l) ∧ ((s.lane l).tracker.records.length < 16) :=
  ⟨0, 15, lane0 (tableLane 15), sound_of_soundCheck (by decide +kernel), by decide +kernel⟩

theorem witness_FlushTakesFlushNumber_greatest : ∃ (l : LaneId) (tag : Tag) (s : State),
    Sound s ∧ s.takesEvents l = true ∧ ¬ tagPending tag (s.lane l) ∧ ((s.lane l).tracker.records.length < 16) ∧
    ((s.lane l).tracker.epoch = 4294967295) :=
  ⟨0, 15, lane0 ((tableLane 15).modifyTracker (fun t => { t with epoch := 4294967295 })),
    sound_of_soundCheck (by decide +kernel), by decide +kernel⟩

theorem witness_FullTableCountsUntracked : ∃ (l : LaneId) (tag : Tag) (start count : Nat) (s : State),
    s.takesEvents l = true ∧ ¬ tagPending tag (s.lane l) ∧ 16 ≤ (s.lane l).tracker.records.length ∧ ((s.lane
    l).tracker.untracked = 65535) :=
  ⟨0, 16, 0, 1, lane0 ((tableLane 16).modifyTracker (fun t => { t with untracked := 65535 })),
    by decide +kernel⟩

theorem witness_ReusedTagAbandonsRecord : ∃ (l : LaneId) (tag : Tag) (start count : Nat) (s : State),
    Sound s ∧ s.takesEvents l = true ∧ tagPending tag (s.lane l) ∧ ((s.lane l).tap.waiting.isSome = true) :=
  ⟨0, 2, 0, 1, reserved0, sound_of_soundCheck (by decide +kernel), by decide +kernel⟩

theorem witness_ReusedTagAbandonsRecord_closing : ∃ (l : LaneId) (tag : Tag) (start count : Nat) (s : State),
    Sound s ∧ s.takesEvents l = true ∧ tagPending tag (s.lane l) ∧ ((s.lane l).run.state = .closing ∧ ∃ r ∈
    (s.lane l).tracker.records, r.tag ≠ tag) :=
  ⟨0, 2, 0, 1,
    lane0 (closingLane [record 2 (.write 0 1) [.notCaptured], record 3 (.write 0 1) [.notCaptured]]),
    sound_of_soundCheck (by decide +kernel), by decide +kernel⟩

theorem witness_ReusedTagAbandonsRecord_last_in_closing : ∃ (l : LaneId) (tag : Tag) (start count : Nat) (s : State),
    Sound s ∧ s.takesEvents l = true ∧ tagPending tag (s.lane l) ∧ ((s.lane l).run.state = .closing) ∧ (∀ r ∈
    (s.lane l).tracker.records, r.tag = tag) :=
  ⟨0, 2, 0, 1, lane0 (closingLane [record 2 (.write 0 1) [.notCaptured]]),
    sound_of_soundCheck (by decide +kernel), by decide +kernel⟩

theorem witness_ReusedTagAbandonsRecord_flush_at_greatest_epoch : ∃ (l : LaneId) (tag : Tag) (start count : Nat) (s : State),
    Sound s ∧ s.takesEvents l = true ∧ tagPending tag (s.lane l) ∧ ((s.lane l).tracker.epoch = 4294967295) :=
  ⟨0, 2, 0, 1, lane0 ((tableLane 16).modifyTracker (fun t => { t with epoch := 4294967295 })),
    sound_of_soundCheck (by decide +kernel), by decide +kernel⟩

theorem witness_OtherCommandMakesNoRecord : ∃ (l : LaneId) (tag : Tag) (s : State),
    Sound s ∧ s.takesEvents l = true ∧ ¬ tagPending tag (s.lane l) :=
  ⟨0, 15, lane0 (tableLane 15), sound_of_soundCheck (by decide +kernel), by decide +kernel⟩

theorem witness_CapturedSectorJoinsQueue_engine_busy : ∃ (l : LaneId) (tag : Tag) (d : Direction) (index : Nat) (bytes : List Byte) (r : Record) (s : State),
    Sound s ∧ s.takesEvents l = true ∧ ((s.lane l).tap.trigger = false) ∧ ((s.lane l).tap.poolReason = false) ∧
    ((s.lane l).tap.waiting = none) ∧ r ∈ (s.lane l).tracker.records ∧ r.tag = tag ∧ Capturable r (s.lane
    l).run.state d index ∧ s.pool.freeBuffers ≠ [] ∧ (s.engine.inFlight.isSome = true) :=
  ⟨0, 3, .towardDrive, 1, [], record 3 (.write 0 2) [.notCaptured, .notCaptured],
    busy0 (withRecords [record 3 (.write 0 2) [.notCaptured, .notCaptured]] (runningLane fillPlan)),
    sound_of_soundCheck (by decide +kernel), by decide +kernel⟩

theorem witness_CapturedSectorJoinsQueue_engine_free : ∃ (l : LaneId) (tag : Tag) (d : Direction) (index : Nat) (bytes : List Byte) (r : Record) (s : State),
    Sound s ∧ s.takesEvents l = true ∧ ((s.lane l).tap.trigger = false) ∧ ((s.lane l).tap.poolReason = false) ∧
    ((s.lane l).tap.waiting = none) ∧ r ∈ (s.lane l).tracker.records ∧ r.tag = tag ∧ Capturable r (s.lane
    l).run.state d index ∧ s.pool.freeBuffers ≠ [] ∧ (s.engine.inFlight = none) :=
  ⟨0, 3, .towardStation, 0, [], record 3 (.read 0 1) [.notCaptured],
    lane0 (withRecords [record 3 (.read 0 1) [.notCaptured]] (runningLane fillPlan)),
    sound_of_soundCheck (by decide +kernel), by decide +kernel⟩

theorem witness_StoppedSectorWaits : ∃ (l : LaneId) (tag : Tag) (d : Direction) (index : Nat) (bytes : List Byte) (r : Record) (s : State),
    Sound s ∧ s.takesEvents l = true ∧ ((s.lane l).tap.trigger = false) ∧ ((s.lane l).tap.poolReason = false) ∧
    ((s.lane l).tap.waiting = none) ∧ r ∈ (s.lane l).tracker.records ∧ r.tag = tag ∧ Capturable r (s.lane
    l).run.state d index ∧ s.pool.freeBuffers = [] :=
  ⟨0, 3, .towardDrive, 0, [], record 3 (.write 0 2) [.notCaptured, .notCaptured],
    full0 7 (withRecords [record 3 (.write 0 2) [.notCaptured, .notCaptured]] (runningLane fillPlan)) [],
    sound_of_soundCheck (by decide +kernel), by decide +kernel⟩

theorem witness_UncapturedSectorPasses_beyond_count : ∃ (l : LaneId) (tag : Tag) (d : Direction) (index : Nat) (bytes : List Byte) (s : State),
    s.takesEvents l = true ∧ ((s.lane l).tap.trigger = false) ∧ ((s.lane l).tap.poolReason = false) ∧ ((s.lane
    l).tap.waiting = none) ∧ (∀ r ∈ (s.lane l).tracker.records, r.tag = tag → ¬ Capturable r (s.lane
    l).run.state d index) ∧ (d = .towardStation → (s.lane l).run.state = .issued ∨ (s.lane l).run.state =
    .rejected → ∀ slot ∈ (s.lane l).tap.readTable[tag.val], index < slot.count → (s.lane l).run.anchor ≠ some
    (slot.start + index)) ∧ ((s.lane l).run.state = .running) :=
  ⟨0, 3, .towardDrive, 2, [],
    lane0 (withRecords [record 3 (.write 0 2) [.notCaptured, .notCaptured]] (runningLane fillPlan)),
    by decide +kernel⟩

theorem witness_UncapturedSectorPasses_beside_anchor : ∃ (l : LaneId) (tag : Tag) (d : Direction) (index : Nat) (bytes : List Byte) (s : State),
    s.takesEvents l = true ∧ ((s.lane l).tap.trigger = false) ∧ ((s.lane l).tap.poolReason = false) ∧ ((s.lane
    l).tap.waiting = none) ∧ (∀ r ∈ (s.lane l).tracker.records, r.tag = tag → ¬ Capturable r (s.lane
    l).run.state d index) ∧ (d = .towardStation → (s.lane l).run.state = .issued ∨ (s.lane l).run.state =
    .rejected → ∀ slot ∈ (s.lane l).tap.readTable[tag.val], index < slot.count → (s.lane l).run.anchor ≠ some
    (slot.start + index)) ∧ ((s.lane l).run.anchor = some 500) :=
  ⟨0, 3, .towardStation, 1, [], issued0 (issuedLane.setSlot 3 (some ⟨500, 2⟩)), by decide +kernel⟩

theorem witness_HeldLaneTakesNoData_trigger : ∃ (l : LaneId) (tag : Tag) (d : Direction) (index : Nat) (bytes : List Byte) (s : State),
    s.takesEvents l = true ∧ ((s.lane l).tap.trigger = true ∨ (s.lane l).tap.poolReason = true) ∧ ((s.lane
    l).tap.trigger = true) :=
  ⟨0, 3, .towardDrive, 0, [], engaged 7 [] none ((lane0 (queueLane 0 8)).setLane 7 busyLane), by decide +kernel⟩

theorem witness_HeldLaneTakesNoData_pool_reason : ∃ (l : LaneId) (tag : Tag) (d : Direction) (index : Nat) (bytes : List Byte) (s : State),
    s.takesEvents l = true ∧ ((s.lane l).tap.trigger = true ∨ (s.lane l).tap.poolReason = true) ∧ ((s.lane
    l).tap.poolReason = true) :=
  ⟨0, 3, .towardDrive, 0, [], full0 6 (waitingLane true none) [0], by decide +kernel⟩

theorem witness_AnchorReadCarriesReport_certificate : ∃ (l : LaneId) (tag : Tag) (index : Nat) (bytes : List Byte) (slot : ReadSlot) (s : State),
    Sound s ∧ ((∃ c, (s.lane l).run.held = .certificate c)) ∧ s.takesEvents l = true ∧ ((s.lane l).tap.trigger =
    false) ∧ ((s.lane l).tap.poolReason = false) ∧ ((s.lane l).tap.waiting = none) ∧ ((s.lane l).run.state =
    .issued ∨ (s.lane l).run.state = .rejected) ∧ ((s.lane l).tap.readTable[tag.val] = some slot) ∧ index <
    slot.count ∧ ((s.lane l).run.anchor = some (slot.start + index)) :=
  ⟨0, 3, 1, [], ⟨499, 2⟩, issued0 (issuedLane.setSlot 3 (some ⟨499, 2⟩)),
    sound_of_soundCheck (by decide +kernel),
    ⟨{ snapshotOf 0 fillPlan ⟨.halted, .halt⟩ (runningLane fillPlan).halt.copyOpenCounts with issueNumber := 1 }, by decide +kernel⟩,
    by decide +kernel⟩

theorem witness_AnchorReadCarriesReport_rejection_4096 : ∃ (l : LaneId) (tag : Tag) (index : Nat) (bytes : List Byte) (slot : ReadSlot) (s : State),
    Sound s ∧ ((s.lane l).tap.sectorSize = some .bytes4096 ∧ ∃ e, (s.lane l).run.held = .rejection e) ∧
    s.takesEvents l = true ∧ ((s.lane l).tap.trigger = false) ∧ ((s.lane l).tap.poolReason = false) ∧ ((s.lane
    l).tap.waiting = none) ∧ ((s.lane l).run.state = .issued ∨ (s.lane l).run.state = .rejected) ∧ ((s.lane
    l).tap.readTable[tag.val] = some slot) ∧ index < slot.count ∧ ((s.lane l).run.anchor = some (slot.start +
    index)) :=
  ⟨0, 3, 0, [], ⟨500, 1⟩,
    lane0 ({ rejectedLane with tap := { rejectedLane.tap with sectorSize := some .bytes4096 } }.setSlot 3 (some ⟨500, 1⟩)),
    sound_of_soundCheck (by decide +kernel), ⟨by decide +kernel, ⟨.check, 0, .bytes512, 0⟩, by decide +kernel⟩,
    by decide +kernel⟩

theorem witness_WaitingSectorStarts_engine_busy : ∃ (l : LaneId) (bytes : List Byte) (w : Waiting) (b : BufferId) (s : State),
    Sound s ∧ s.takesEvents l = true ∧ ((s.lane l).tap.waiting = some w) ∧ ((s.lane l).capture.reservation =
    some b) ∧ (s.engine.inFlight.isSome = true) :=
  ⟨0, [], ⟨2, .towardDrive, 1⟩, 45, reserved0, sound_of_soundCheck (by decide +kernel), by decide +kernel⟩

theorem witness_WaitingSectorStarts_engine_free : ∃ (l : LaneId) (bytes : List Byte) (w : Waiting) (b : BufferId) (s : State),
    Sound s ∧ s.takesEvents l = true ∧ ((s.lane l).tap.waiting = some w) ∧ ((s.lane l).capture.reservation =
    some b) ∧ (s.engine.inFlight = none) :=
  ⟨0, [], ⟨2, .towardDrive, 0⟩, 46, reservedFree0, sound_of_soundCheck (by decide +kernel), by decide +kernel⟩

theorem witness_CompletionAwaitsResults_awaits : ∃ (l : LaneId) (tag : Tag) (status : Status) (errorLba : Option Nat) (s : State),
    Sound s ∧ (∃ r ∈ (s.lane l).tracker.records, r.tag = tag ∧ r.completion = none ∧ 0 < r.outstanding ∧ ∀ w ∈
    (s.lane l).tap.waiting, w.tag ≠ tag) ∧ s.takesEvents l = true :=
  ⟨7, 0, .good, none, busy0 idleLane, sound_of_soundCheck (by decide +kernel),
    ⟨record 0 (.write 600 1) [.pending], by decide +kernel⟩, by decide +kernel⟩

theorem witness_CompletionAwaitsResults_ignored : ∃ (l : LaneId) (tag : Tag) (status : Status) (errorLba : Option Nat) (s : State),
    Sound s ∧ s.takesEvents l = true ∧ (∀ r ∈ (s.lane l).tracker.records, r.tag = tag → r.completion ≠ none) :=
  ⟨7, 1, .good, none, busy0 idleLane, sound_of_soundCheck (by decide +kernel), by decide +kernel⟩

theorem witness_CompletionDropsWaitingSector_on_list : ∃ (l : LaneId) (tag : Tag) (status : Status) (errorLba : Option Nat) (w : Waiting) (r : Record) (s : State),
    Sound s ∧ s.takesEvents l = true ∧ ((s.lane l).tap.waiting = some w) ∧ w.tag = tag ∧ r ∈ (s.lane
    l).tracker.records ∧ r.tag = tag ∧ 1 < r.outstanding ∧ ((s.lane l).capture.reservation = none) :=
  ⟨0, 2, .good, none, ⟨2, .towardDrive, 1⟩, record 2 (.write 0 2) [.pending, .pending],
    full0 6 (waitingLane true none) [0], sound_of_soundCheck (by decide +kernel), by decide +kernel⟩

theorem witness_CompletionDropsWaitingSector_reserved : ∃ (l : LaneId) (tag : Tag) (status : Status) (errorLba : Option Nat) (w : Waiting) (r : Record) (s : State),
    Sound s ∧ s.takesEvents l = true ∧ ((s.lane l).tap.waiting = some w) ∧ w.tag = tag ∧ r ∈ (s.lane
    l).tracker.records ∧ r.tag = tag ∧ 1 < r.outstanding ∧ ((s.lane l).capture.reservation = some 45) :=
  ⟨0, 2, .error, some 1, ⟨2, .towardDrive, 1⟩, record 2 (.write 0 2) [.pending, .pending], reserved0,
    sound_of_soundCheck (by decide +kernel), by decide +kernel⟩

theorem witness_CompletionDropsWaitingSector_retires : ∃ (l : LaneId) (tag : Tag) (status : Status) (errorLba : Option Nat) (w : Waiting) (r : Record) (s : State),
    Sound s ∧ s.takesEvents l = true ∧ ((s.lane l).tap.waiting = some w) ∧ w.tag = tag ∧ r ∈ (s.lane
    l).tracker.records ∧ r.tag = tag ∧ r.outstanding = 1 :=
  ⟨0, 2, .error, none, ⟨2, .towardDrive, 0⟩, record 2 (.write 0 1) [.pending], reservedFree0,
    sound_of_soundCheck (by decide +kernel), by decide +kernel⟩

theorem witness_CompletionDropsWaitingSector_retires_write : ∃ (l : LaneId) (tag : Tag) (status : Status) (errorLba : Option Nat) (w : Waiting) (r : Record) (s : State),
    Sound s ∧ (∀ i x, r.entries[i]? = some x → i = w.index ∨ x = .compared .matched) ∧ (∀ a, Addresses
    r.operation a → (s.lane l).defects.lists a = false) ∧ s.takesEvents l = true ∧ ((s.lane l).tap.waiting =
    some w) ∧ w.tag = tag ∧ r ∈ (s.lane l).tracker.records ∧ r.tag = tag ∧ r.outstanding = 1 ∧ ((s.lane
    l).run.state = .running ∧ (s.lane l).run.plan = some fillPlan ∧ r.stamp = (s.lane l).run.current ∧ r.marker
    = none ∧ (s.lane l).coverage.extents.length ≤ 61) :=
  ⟨0, 2, .good, none, ⟨2, .towardDrive, 1⟩, record 2 (.write 0 2) [.compared .matched, .pending],
    reservedFree0.modifyLane 0 (fun x => (withRecords [record 2 (.write 0 2) [.compared .matched, .pending]] x).modifyTap (fun t => { t with waiting := some ⟨2, .towardDrive, 1⟩ })),
    sound_of_soundCheck (by decide +kernel),
    (fun i x h => by
      match i, h with
      | 0, h => exact .inr (Option.some.inj h).symm
      | 1, _ => exact .inl rfl),
    (fun _ _ => rfl), by decide +kernel⟩

theorem witness_JobResultEntersOrIsDropped_marker_mismatched : ∃ (f : Flight) (s : State),
    Sound s ∧ (Differs f) ∧ s.engine.inFlight = some f ∧ (f.discard = false ∧ ∃ r ∈ (s.lane
    f.lane).tracker.records, r.tag = f.job.tag ∧ r.completion = none) ∧ (CarriesSignature f.job) :=
  ⟨
    ⟨0, ⟨0, 0, .towardDrive, 47, [Config.signature0, Config.signature1, 2]⟩, some ⟨.write 0 1, some ⟨1, 1⟩, 0, some fillPlan⟩, false⟩,
    engaged 0 ([Config.signature0, Config.signature1, 2]) (some ⟨.write 0 1, some ⟨1, 1⟩, 0, some fillPlan⟩) (lane0 (withRecords [record 0 (.write 0 1) [.pending]] (runningLane fillPlan))),
    sound_of_soundCheck (by decide +kernel),
    ⟨⟨.write 0 1, some ⟨1, 1⟩, 0, some fillPlan⟩, rfl, ⟨1, 1⟩, rfl, fillPlan, rfl, by decide, by decide, .inl (by decide), 0, by decide, fun ⟨_, h, h2⟩ => absurd (h.trans h2.symm) (by decide +kernel)⟩,
    by decide +kernel⟩

theorem witness_JobResultEntersOrIsDropped_marker_matched : ∃ (f : Flight) (s : State),
    Sound s ∧ (¬ Differs f) ∧ s.engine.inFlight = some f ∧ (f.discard = false ∧ ∃ r ∈ (s.lane
    f.lane).tracker.records, r.tag = f.job.tag ∧ r.completion = none) ∧ (CarriesSignature f.job) :=
  ⟨⟨0, ⟨0, 0, .towardDrive, 47, [Config.signature0, Config.signature1, 2]⟩, none, false⟩,
    engaged 0 ([Config.signature0, Config.signature1, 2]) (none) (lane0 (withRecords [record 0 (.write 0 1) [.pending]] (runningLane fillPlan))),
    sound_of_soundCheck (by decide +kernel), (by rintro ⟨c, h, -⟩; cases h), by decide +kernel⟩

theorem witness_JobResultEntersOrIsDropped_mismatched : ∃ (f : Flight) (s : State),
    Sound s ∧ (Differs f) ∧ s.engine.inFlight = some f ∧ (f.discard = false ∧ ∃ r ∈ (s.lane
    f.lane).tracker.records, r.tag = f.job.tag ∧ r.completion = none) ∧ (¬ CarriesSignature f.job) :=
  ⟨⟨0, ⟨0, 0, .towardDrive, 47, [8]⟩, some ⟨.write 0 1, some ⟨1, 1⟩, 0, some fillPlan⟩, false⟩,
    engaged 0 ([8]) (some ⟨.write 0 1, some ⟨1, 1⟩, 0, some fillPlan⟩) (lane0 (withRecords [record 0 (.write 0 1) [.pending]] (runningLane fillPlan))),
    sound_of_soundCheck (by decide +kernel),
    ⟨⟨.write 0 1, some ⟨1, 1⟩, 0, some fillPlan⟩, rfl, ⟨1, 1⟩, rfl, fillPlan, rfl, by decide, by decide, .inl (by decide), 0, by decide, fun ⟨_, h, h2⟩ => absurd (h.trans h2.symm) (by decide +kernel)⟩,
    by decide +kernel⟩

theorem witness_JobResultEntersOrIsDropped_matched : ∃ (f : Flight) (s : State),
    Sound s ∧ (¬ Differs f) ∧ s.engine.inFlight = some f ∧ (f.discard = false ∧ ∃ r ∈ (s.lane
    f.lane).tracker.records, r.tag = f.job.tag ∧ r.completion = none) ∧ (¬ CarriesSignature f.job) :=
  ⟨
    ⟨0, ⟨0, 0, .towardDrive, 47, List.replicate 128 7⟩, some ⟨.write 0 1, some ⟨1, 1⟩, 0, some fillPlan⟩, false⟩,
    engaged 0 (List.replicate 128 7) (some ⟨.write 0 1, some ⟨1, 1⟩, 0, some fillPlan⟩) (lane0 (withRecords [record 0 (.write 0 1) [.pending]] (runningLane fillPlan))),
    sound_of_soundCheck (by decide +kernel),
    (by
    rintro ⟨c, h, t, h2, p, h3, -, -, -, k, hk, hn⟩
    cases h; cases h2; cases h3
    have hk : k < 128 := hk
    exact hn ⟨7, (List.getElem?_replicate (a := (7 : Word))).trans (if_pos hk), rfl⟩),
    by decide +kernel⟩

theorem witness_JobResultEntersOrIsDropped_grants_on : ∃ (f : Flight) (s : State),
    Sound s ∧ (∃ (m : LaneId) (j : Job) (rest : List Job), NextGranted m j rest s) ∧ s.engine.inFlight = some f
    ∧ (f.discard = false ∧ ∃ r ∈ (s.lane f.lane).tracker.records, r.tag = f.job.tag ∧ r.completion = none) :=
  ⟨⟨7, ⟨0, 0, .towardDrive, 47, []⟩, none, false⟩, full0 7 idleLane [],
    sound_of_soundCheck (by decide +kernel),
    ⟨1, ⟨0, 0, .towardDrive, 0, []⟩, (queueLane 0 8).capture.queue.tail, by decide +kernel⟩, by decide +kernel⟩

theorem witness_JobResultEntersOrIsDropped_discarded : ∃ (f : Flight) (s : State),
    Sound s ∧ s.engine.inFlight = some f ∧ (f.discard = true) :=
  ⟨⟨0, ⟨0, 0, .towardDrive, 47, []⟩, none, true⟩,
    after (.linkReset 0 false) (engaged 0 [] none (lane0 busyLane)), sound_of_soundCheck (by decide +kernel),
    by decide +kernel⟩

theorem witness_JobResultEntersOrIsDropped_retires : ∃ (f : Flight) (s : State),
    Sound s ∧ (∃ r ∈ (s.lane f.lane).tracker.records, r.tag = f.job.tag ∧ r.completion = some ⟨.good, none⟩ ∧
    r.outstanding = 1 ∧ r.operation = .write 0 1 ∧ r.stamp = (s.lane f.lane).run.current ∧ r.marker = none ∧
    LeavesOpen (Addresses r.operation) (s.lane f.lane)) ∧ (¬ Differs f) ∧ s.engine.inFlight = some f ∧
    (f.discard = false) ∧ (¬ CarriesSignature f.job) :=
  ⟨
    ⟨0, ⟨0, 0, .towardDrive, 47, List.replicate 128 7⟩, some ⟨.write 0 1, some ⟨1, 1⟩, 0, some fillPlan⟩, false⟩,
    engaged 0 (List.replicate 128 7) (some ⟨.write 0 1, some ⟨1, 1⟩, 0, some fillPlan⟩) (lane0 (withRecords [{ record 0 (.write 0 1) [.pending] with completion := some ⟨.good, none⟩ }] (runningLane fillPlan))),
    sound_of_soundCheck (by decide +kernel),
    ⟨{ record 0 (.write 0 1) [.pending] with completion := some ⟨.good, none⟩ }, by decide +kernel, rfl, rfl, rfl,
      rfl, by decide +kernel, rfl, fillPlan, by decide +kernel, 9, by decide +kernel⟩,
    (by
    rintro ⟨c, h, t, h2, p, h3, -, -, -, k, hk, hn⟩
    cases h; cases h2; cases h3
    have hk : k < 128 := hk
    exact hn ⟨7, (List.getElem?_replicate (a := (7 : Word))).trans (if_pos hk), rfl⟩),
    by decide +kernel⟩

theorem witness_GrantIsRoundRobin_job_waits : ∃ (s : State),
    (∃ (l : LaneId) (j : Job) (rest : List Job), NextGranted l j rest s ∧ ((s.lane l).tracker.records.map
    Record.tag).Nodup ∧ ∃ r ∈ (s.lane l).tracker.records, r.tag = j.tag) ∧ s.engine.inFlight = none :=
  ⟨{ full0 7 idleLane [] with engine := ⟨6, none⟩ },
    ⟨1, ⟨0, 0, .towardDrive, 0, []⟩, (queueLane 0 8).capture.queue.tail, by decide +kernel⟩, by decide +kernel⟩

theorem witness_GrantIsRoundRobin_all_empty : ∃ (s : State),
    s.engine.inFlight = none ∧ (∀ l : LaneId, (s.lane l).capture.queue = []) :=
  ⟨ready, by decide +kernel⟩

theorem witness_StallExpiryAppliesAction_note : ∃ (l : LaneId) (p : Plan) (k : Stamp) (n : Nat) (s : State),
    Sound s ∧ StallCounts (s.lane l) ∧ ((s.lane l).run.plan = some p) ∧ ((s.lane l).run.current = some k) ∧ n =
    [5, 15, 30, 60, 120, 300, 600, 1800].getD p.stall.val 0 - (s.lane l).run.stallTimer ∧ (p.actions[4] = .note) :=
  ⟨0, actionPlan .note, ⟨1, 1⟩, 5, lane0 (runningLane (actionPlan .note)),
    sound_of_soundCheck (by decide +kernel), by decide +kernel⟩

theorem witness_StallExpiryAppliesAction_suspend : ∃ (l : LaneId) (p : Plan) (k : Stamp) (n : Nat) (s : State),
    Sound s ∧ StallCounts (s.lane l) ∧ ((s.lane l).run.plan = some p) ∧ ((s.lane l).run.current = some k) ∧ n =
    [5, 15, 30, 60, 120, 300, 600, 1800].getD p.stall.val 0 - (s.lane l).run.stallTimer ∧ (p.actions[4] =
    .suspend) :=
  ⟨0, actionPlan .suspend, ⟨1, 1⟩, 5, lane0 (runningLane (actionPlan .suspend)),
    sound_of_soundCheck (by decide +kernel), by decide +kernel⟩

theorem witness_StallExpiryAppliesAction_fail : ∃ (l : LaneId) (p : Plan) (k : Stamp) (n : Nat) (s : State),
    Sound s ∧ StallCounts (s.lane l) ∧ ((s.lane l).run.plan = some p) ∧ ((s.lane l).run.current = some k) ∧ n =
    [5, 15, 30, 60, 120, 300, 600, 1800].getD p.stall.val 0 - (s.lane l).run.stallTimer ∧ (p.actions[4] = .fail) :=
  ⟨0, actionPlan .fail, ⟨1, 1⟩, 5, lane0 (runningLane (actionPlan .fail)),
    sound_of_soundCheck (by decide +kernel), by decide +kernel⟩

theorem witness_StallExpiryAppliesAction_restart : ∃ (l : LaneId) (p : Plan) (k : Stamp) (n : Nat) (s : State),
    Sound s ∧ StallCounts (s.lane l) ∧ ((s.lane l).run.plan = some p) ∧ ((s.lane l).run.current = some k) ∧ n =
    [5, 15, 30, 60, 120, 300, 600, 1800].getD p.stall.val 0 - (s.lane l).run.stallTimer ∧ (p.actions[4] =
    .restart ∧ k.attempt < 255) :=
  ⟨0, actionPlan .restart, ⟨1, 254⟩, 5, lane0 (atAttempt 254 (runningLane (actionPlan .restart))),
    sound_of_soundCheck (by decide +kernel), by decide +kernel⟩

theorem witness_StallExpiryAppliesAction_restart_at_255 : ∃ (l : LaneId) (p : Plan) (k : Stamp) (n : Nat) (s : State),
    Sound s ∧ StallCounts (s.lane l) ∧ ((s.lane l).run.plan = some p) ∧ ((s.lane l).run.current = some k) ∧ n =
    [5, 15, 30, 60, 120, 300, 600, 1800].getD p.stall.val 0 - (s.lane l).run.stallTimer ∧ (p.actions[4] =
    .restart ∧ k.attempt = 255) :=
  ⟨0, actionPlan .restart, ⟨1, 255⟩, 5, lane0 (atAttempt 255 (runningLane (actionPlan .restart))),
    sound_of_soundCheck (by decide +kernel), by decide +kernel⟩

theorem witness_StallExpiryAppliesAction_last_second_with_another : ∃ (l : LaneId) (p : Plan) (k : Stamp) (n : Nat) (s : State),
    Sound s ∧ StallCounts (s.lane l) ∧ ((s.lane l).run.plan = some p) ∧ ((s.lane l).run.current = some k) ∧ n =
    [5, 15, 30, 60, 120, 300, 600, 1800].getD p.stall.val 0 - (s.lane l).run.stallTimer ∧ (StallWithin 1 (s.lane
    0) ∧ DrainWithin 1 (s.lane 3)) :=
  ⟨0, fillPlan, ⟨1, 1⟩, 1, stallAndDrain 4 4, sound_of_soundCheck (by decide +kernel), by decide +kernel⟩

theorem witness_StallExpiryAppliesAction_alone : ∃ (l : LaneId) (p : Plan) (k : Stamp) (n : Nat) (s : State),
    Sound s ∧ StallCounts (s.lane l) ∧ ((s.lane l).run.plan = some p) ∧ ((s.lane l).run.current = some k) ∧ n =
    [5, 15, 30, 60, 120, 300, 600, 1800].getD p.stall.val 0 - (s.lane l).run.stallTimer ∧ (1 < n ∧ ∀ m : LaneId,
    m ≠ l → NoExpiryWithin n (s.lane m)) :=
  ⟨0, fillPlan, ⟨1, 1⟩, 2, stallAndDrain 3 2, sound_of_soundCheck (by decide +kernel), by decide +kernel⟩

theorem witness_DrainExpiryEndsClosing_store_free : ∃ (l : LaneId) (n : Nat) (s : State),
    Sound s ∧ ((s.lane l).run.state = .closing) ∧ n = limitGiven (s.lane l).run - (s.lane l).run.drainTimer ∧
    (s.store.status = .ready ∧ s.store.storedNumber < 4294967295 ∧ s.store.writeInFlight = none) :=
  ⟨0, 5, lane0 (closingLane [record 3 (.write 0 1) [.notCaptured]]), sound_of_soundCheck (by decide +kernel),
    by decide +kernel⟩

theorem witness_DrainExpiryEndsClosing_store_busy : ∃ (l : LaneId) (n : Nat) (s : State),
    Sound s ∧ ((s.lane l).run.state = .closing) ∧ n = limitGiven (s.lane l).run - (s.lane l).run.drainTimer ∧
    (s.store.status = .ready ∧ s.store.storedNumber < 4294967295 ∧ s.store.writeInFlight ≠ none) :=
  ⟨2, 5, (issuing01 4294967295).setLane 2 (closingLane [record 3 (.write 0 1) [.notCaptured]]),
    sound_of_soundCheck (by decide +kernel), by decide +kernel⟩

theorem witness_DrainExpiryEndsClosing_degraded : ∃ (l : LaneId) (n : Nat) (s : State),
    Sound s ∧ ((s.lane l).run.state = .closing) ∧ n = limitGiven (s.lane l).run - (s.lane l).run.drainTimer ∧
    (s.store.status = .degraded) :=
  ⟨0, 5, degraded.setLane 0 (closingLane [record 3 (.write 0 1) [.notCaptured]]),
    sound_of_soundCheck (by decide +kernel), by decide +kernel⟩

theorem witness_DrainExpiryEndsClosing_numbers_exhausted : ∃ (l : LaneId) (n : Nat) (s : State),
    Sound s ∧ ((s.lane l).run.state = .closing) ∧ n = limitGiven (s.lane l).run - (s.lane l).run.drainTimer ∧
    (s.store.storedNumber = 4294967295) :=
  ⟨0, 5,
    { lane0 (closingLane [record 3 (.write 0 1) [.notCaptured]]) with store := { ready.store with storedNumber := 4294967295 } },
    sound_of_soundCheck (by decide +kernel), by decide +kernel⟩

theorem witness_DrainExpiryEndsClosing_last_second_with_another : ∃ (l : LaneId) (n : Nat) (s : State),
    Sound s ∧ ((s.lane l).run.state = .closing) ∧ n = limitGiven (s.lane l).run - (s.lane l).run.drainTimer ∧
    (StallWithin 1 (s.lane 0) ∧ DrainWithin 1 (s.lane 3)) :=
  ⟨3, 1, stallAndDrain 4 4, sound_of_soundCheck (by decide +kernel), by decide +kernel⟩

theorem witness_DrainExpiryEndsClosing_alone : ∃ (l : LaneId) (n : Nat) (s : State),
    Sound s ∧ ((s.lane l).run.state = .closing) ∧ n = limitGiven (s.lane l).run - (s.lane l).run.drainTimer ∧ (1
    < n ∧ ∀ m : LaneId, m ≠ l → NoExpiryWithin n (s.lane m)) :=
  ⟨3, 2, stallAndDrain 2 3, sound_of_soundCheck (by decide +kernel), by decide +kernel⟩

theorem witness_RetiredWriteGivesCredit_flush_flag_0 : ∃ (l : LaneId) (tag : Tag) (start count : Nat) (e : Option Nat) (r : Record) (p : Plan) (s : State),
    Sound s ∧ (∀ a, Addresses r.operation a → (s.lane l).defects.lists a = false) ∧ LeavesOpen (Addresses
    r.operation) (s.lane l) ∧ s.takesEvents l = true ∧ ((s.lane l).run.state = .running) ∧ ((s.lane l).run.plan
    = some p) ∧ ReadyToRetire r (s.lane l) ∧ r.tag = tag ∧ r.operation = .write start count ∧ r.stamp = (s.lane
    l).run.current ∧ r.marker = none ∧ 1 ≤ count ∧ (∀ x ∈ r.entries, x = .compared .matched) ∧ p.first ≤ start ∧
    start + count ≤ p.last + 1 ∧ ((s.lane l).coverage.extents.length ≤ 62) ∧ (p.flush = false) :=
  ⟨0, 3, 1, 3, none, record 3 (.write 1 3) [.compared .matched, .compared .matched, .compared .matched],
    fillPlan,
    lane0 (withExtents [⟨0, 0, .verified⟩, ⟨2, 3, .written⟩] (withRecords [record 3 (.write 1 3) [.compared .matched, .compared .matched, .compared .matched]] (runningLane fillPlan))),
    sound_of_soundCheck (by decide +kernel), (fun _ _ => rfl),
    ⟨fillPlan, by decide +kernel, 9, by decide +kernel⟩, by decide +kernel⟩

theorem witness_RetiredWriteGivesCredit_flush_flag_1 : ∃ (l : LaneId) (tag : Tag) (start count : Nat) (e : Option Nat) (r : Record) (p : Plan) (s : State),
    Sound s ∧ (∀ a, Addresses r.operation a → (s.lane l).defects.lists a = false) ∧ LeavesOpen (Addresses
    r.operation) (s.lane l) ∧ s.takesEvents l = true ∧ ((s.lane l).run.state = .running) ∧ ((s.lane l).run.plan
    = some p) ∧ ReadyToRetire r (s.lane l) ∧ r.tag = tag ∧ r.operation = .write start count ∧ r.stamp = (s.lane
    l).run.current ∧ r.marker = none ∧ 1 ≤ count ∧ (∀ x ∈ r.entries, x = .compared .matched) ∧ p.first ≤ start ∧
    start + count ≤ p.last + 1 ∧ ((s.lane l).coverage.extents.length ≤ 62) ∧ (p.flush = true) :=
  ⟨0, 3, 1, 3, none, record 3 (.write 1 3) [.compared .matched, .compared .matched, .compared .matched],
    flushPlan,
    lane0 (withExtents [⟨0, 1, .cached 2⟩, ⟨2, 3, .written⟩] (withRecords [record 3 (.write 1 3) [.compared .matched, .compared .matched, .compared .matched]] (runningLane flushPlan))),
    sound_of_soundCheck (by decide +kernel), (fun _ _ => rfl),
    ⟨flushPlan, by decide +kernel, 9, by decide +kernel⟩, by decide +kernel⟩

theorem witness_RetiredWriteGivesCredit_refused_apart : ∃ (l : LaneId) (tag : Tag) (start count : Nat) (e : Option Nat) (r : Record) (p : Plan) (s : State),
    Sound s ∧ (∀ a, Addresses r.operation a → (s.lane l).defects.lists a = false) ∧ (∀ a, Addresses r.operation
    a ∨ a + 1 = start ∨ a = start + count → conditionOf (s.lane l).coverage.extents a = none) ∧ s.takesEvents l
    = true ∧ ((s.lane l).run.state = .running) ∧ ((s.lane l).run.plan = some p) ∧ ReadyToRetire r (s.lane l) ∧
    r.tag = tag ∧ r.operation = .write start count ∧ r.stamp = (s.lane l).run.current ∧ r.marker = none ∧ 1 ≤
    count ∧ (∀ x ∈ r.entries, x = .compared .matched) ∧ p.first ≤ start ∧ start + count ≤ p.last + 1 ∧ ((s.lane
    l).coverage.extents.length = 64) :=
  ⟨0, 3, 1, 3, none, record 3 (.write 1 3) [.compared .matched, .compared .matched, .compared .matched],
    { fillPlan with last := 999 },
    lane0 (withExtents (((List.range 64).map (fun i => ⟨10 + 3 * i, 10 + 1 + 3 * i, .written⟩))) (withRecords [record 3 (.write 1 3) [.compared .matched, .compared .matched, .compared .matched]] (runningLane { fillPlan with last := 999 }))),
    sound_of_soundCheck (by decide +kernel), (fun _ _ => rfl),
    (by
    rintro a (⟨h, h2⟩ | h | h)
    · have h : 1 ≤ a := h
      have h2 : a < 4 := h2
      obtain rfl | rfl | rfl : a = 1 ∨ a = 2 ∨ a = 3 := by omega
      all_goals decide +kernel
    · obtain rfl : a = 0 := Nat.succ.inj h
      decide +kernel
    · subst h; decide +kernel),
    by decide +kernel⟩

theorem witness_RetiredWriteGivesCredit_refused_inside_63 : ∃ (l : LaneId) (tag : Tag) (start count : Nat) (e : Option Nat) (r : Record) (p : Plan) (s : State) (y : Extent),
    Sound s ∧ (∀ a, Addresses r.operation a → (s.lane l).defects.lists a = false) ∧ s.takesEvents l = true ∧
    ((s.lane l).run.state = .running) ∧ ((s.lane l).run.plan = some p) ∧ ReadyToRetire r (s.lane l) ∧ r.tag =
    tag ∧ r.operation = .write start count ∧ r.stamp = (s.lane l).run.current ∧ r.marker = none ∧ 1 ≤ count ∧ (∀
    x ∈ r.entries, x = .compared .matched) ∧ p.first ≤ start ∧ start + count ≤ p.last + 1 ∧ y ∈ (s.lane
    l).coverage.extents ∧ 63 ≤ (s.lane l).coverage.extents.length ∧ y.first < start ∧ start + count ≤ y.last ∧
    (y.credit = .verified ∨ (p.flush = true ∧ y.credit = .written)) :=
  ⟨0, 3, 1, 3, none, record 3 (.write 1 3) [.compared .matched, .compared .matched, .compared .matched],
    { fillPlan with last := 999 },
    lane0 (withExtents (⟨0, 6, .verified⟩ :: ((List.range 62).map (fun i => ⟨10 + 3 * i, 10 + 1 + 3 * i, .written⟩))) (withRecords [record 3 (.write 1 3) [.compared .matched, .compared .matched, .compared .matched]] (runningLane { fillPlan with last := 999 }))),
    ⟨0, 6, .verified⟩, sound_of_soundCheck (by decide +kernel), (fun _ _ => rfl), by decide +kernel⟩

theorem witness_RetiredWriteGivesCredit_refused_inside_64 : ∃ (l : LaneId) (tag : Tag) (start count : Nat) (e : Option Nat) (r : Record) (p : Plan) (s : State) (y : Extent),
    Sound s ∧ (∀ a, Addresses r.operation a → (s.lane l).defects.lists a = false) ∧ s.takesEvents l = true ∧
    ((s.lane l).run.state = .running) ∧ ((s.lane l).run.plan = some p) ∧ ReadyToRetire r (s.lane l) ∧ r.tag =
    tag ∧ r.operation = .write start count ∧ r.stamp = (s.lane l).run.current ∧ r.marker = none ∧ 1 ≤ count ∧ (∀
    x ∈ r.entries, x = .compared .matched) ∧ p.first ≤ start ∧ start + count ≤ p.last + 1 ∧ y ∈ (s.lane
    l).coverage.extents ∧ 63 ≤ (s.lane l).coverage.extents.length ∧ y.first < start ∧ start + count ≤ y.last ∧
    (y.credit = .verified ∨ (p.flush = true ∧ y.credit = .written)) :=
  ⟨0, 3, 1, 3, none, record 3 (.write 1 3) [.compared .matched, .compared .matched, .compared .matched],
    { fillPlan with last := 999 },
    lane0 (withExtents (⟨0, 6, .verified⟩ :: ((List.range 63).map (fun i => ⟨10 + 3 * i, 10 + 1 + 3 * i, .written⟩))) (withRecords [record 3 (.write 1 3) [.compared .matched, .compared .matched, .compared .matched]] (runningLane { fillPlan with last := 999 }))),
    ⟨0, 6, .verified⟩, sound_of_soundCheck (by decide +kernel), (fun _ _ => rfl), by decide +kernel⟩

theorem witness_RetiredReadVerifies_written : ∃ (l : LaneId) (tag : Tag) (start count : Nat) (e : Option Nat) (r : Record) (p : Plan) (s : State),
    Sound s ∧ LeavesOpen (Addresses r.operation) (s.lane l) ∧ (∃ a, Addresses r.operation a ∧ conditionOf
    (s.lane l).coverage.extents a = some .written) ∧ s.takesEvents l = true ∧ ((s.lane l).run.state = .running)
    ∧ ((s.lane l).run.plan = some p) ∧ ReadyToRetire r (s.lane l) ∧ r.tag = tag ∧ r.operation = .read start
    count ∧ r.stamp = (s.lane l).run.current ∧ p.first ≤ start ∧ start + count ≤ p.last + 1 ∧ (∀ x ∈ r.entries,
    x = .compared .matched) ∧ ((s.lane l).coverage.extents.length ≤ 62) :=
  ⟨0, 3, 1, 3, none, record 3 (.read 1 3) [.compared .matched, .compared .matched, .compared .matched],
    fillPlan,
    lane0 (withExtents [⟨0, 6, .written⟩] (withRecords [record 3 (.read 1 3) [.compared .matched, .compared .matched, .compared .matched]] (runningLane fillPlan))),
    sound_of_soundCheck (by decide +kernel), ⟨fillPlan, by decide +kernel, 9, by decide +kernel⟩,
    ⟨3, by decide +kernel⟩, by decide +kernel⟩

theorem witness_RetiredReadVerifies_none_written : ∃ (l : LaneId) (tag : Tag) (start count : Nat) (e : Option Nat) (r : Record) (p : Plan) (s : State),
    Sound s ∧ LeavesOpen (Addresses r.operation) (s.lane l) ∧ (∀ a, Addresses r.operation a → conditionOf
    (s.lane l).coverage.extents a ≠ some .written) ∧ s.takesEvents l = true ∧ ((s.lane l).run.state = .running)
    ∧ ((s.lane l).run.plan = some p) ∧ ReadyToRetire r (s.lane l) ∧ r.tag = tag ∧ r.operation = .read start
    count ∧ r.stamp = (s.lane l).run.current ∧ p.first ≤ start ∧ start + count ≤ p.last + 1 ∧ (∀ x ∈ r.entries,
    x = .compared .matched) ∧ ((s.lane l).coverage.extents.length ≤ 62) :=
  ⟨0, 3, 1, 3, none, record 3 (.read 1 3) [.compared .matched, .compared .matched, .compared .matched],
    fillPlan,
    lane0 (withExtents [] (withRecords [record 3 (.read 1 3) [.compared .matched, .compared .matched, .compared .matched]] (runningLane fillPlan))),
    sound_of_soundCheck (by decide +kernel), ⟨fillPlan, by decide +kernel, 9, by decide +kernel⟩,
    (fun _ _ h => by
      have h : (none : Option Credit) = some .written := h
      cases h),
    by decide +kernel⟩

theorem witness_RetiredReadVerifies_refused : ∃ (l : LaneId) (tag : Tag) (start count : Nat) (e : Option Nat) (r : Record) (p : Plan) (s : State),
    Sound s ∧ (∃ y ∈ (s.lane l).coverage.extents, y.credit = .written ∧ y.first < start ∧ start + count ≤
    y.last) ∧ s.takesEvents l = true ∧ ((s.lane l).run.state = .running) ∧ ((s.lane l).run.plan = some p) ∧
    ReadyToRetire r (s.lane l) ∧ r.tag = tag ∧ r.operation = .read start count ∧ r.stamp = (s.lane
    l).run.current ∧ p.first ≤ start ∧ start + count ≤ p.last + 1 ∧ (∀ x ∈ r.entries, x = .compared .matched) ∧
    1 ≤ count ∧ 63 ≤ (s.lane l).coverage.extents.length :=
  ⟨0, 3, 1, 3, none, record 3 (.read 1 3) [.compared .matched, .compared .matched, .compared .matched],
    { fillPlan with last := 999 },
    lane0 (withExtents (⟨0, 6, .written⟩ :: ((List.range 62).map (fun i => ⟨10 + 3 * i, 10 + 1 + 3 * i, .written⟩))) (withRecords [record 3 (.read 1 3) [.compared .matched, .compared .matched, .compared .matched]] (runningLane { fillPlan with last := 999 }))),
    sound_of_soundCheck (by decide +kernel), ⟨⟨0, 6, .written⟩, by decide +kernel⟩, by decide +kernel⟩

theorem witness_RetiredReadVerifies_mismatched : ∃ (l : LaneId) (tag : Tag) (start count : Nat) (e : Option Nat) (r : Record) (p : Plan) (s : State),
    Sound s ∧ LeavesOpen (Addresses r.operation) (s.lane l) ∧ (Lowest (fun b => Addresses r.operation b ∧
    conditionOf (s.lane l).coverage.extents b ≠ none) 2) ∧ s.takesEvents l = true ∧ ((s.lane l).run.state =
    .running) ∧ ((s.lane l).run.plan = some p) ∧ ReadyToRetire r (s.lane l) ∧ r.tag = tag ∧ r.operation = .read
    start count ∧ r.stamp = (s.lane l).run.current ∧ p.first ≤ start ∧ start + count ≤ p.last + 1 ∧ (∀ x ∈
    r.entries, x = .compared .mismatched) ∧ p.actions[1] = .note ∧ p.actions[5] = .note ∧ ((s.lane
    l).coverage.extents.length + count ≤ 64) ∧ ((s.lane l).defects.entries.length + count ≤ 24) :=
  ⟨0, 3, 1, 3, none,
    record 3 (.read 1 3) [.compared .mismatched, .compared .mismatched, .compared .mismatched], fillPlan,
    lane0 (withExtents [⟨2, 6, .written⟩] (withRecords [record 3 (.read 1 3) [.compared .mismatched, .compared .mismatched, .compared .mismatched]] (runningLane fillPlan))),
    sound_of_soundCheck (by decide +kernel), ⟨fillPlan, by decide +kernel, 9, by decide +kernel⟩,
    ⟨by decide +kernel, fun b hb => Nat.le_of_not_lt fun h => by
      have h1 : 1 ≤ b := hb.1.1
      obtain rfl : b = 1 := by omega
      exact hb.2 (by decide +kernel)⟩,
    by decide +kernel⟩

theorem witness_RetiredReadVerifies_mismatched_untouched : ∃ (l : LaneId) (tag : Tag) (start count : Nat) (e : Option Nat) (r : Record) (p : Plan) (s : State),
    Sound s ∧ LeavesOpen (Addresses r.operation) (s.lane l) ∧ (∀ a, Addresses r.operation a → conditionOf
    (s.lane l).coverage.extents a = none) ∧ s.takesEvents l = true ∧ ((s.lane l).run.state = .running) ∧
    ((s.lane l).run.plan = some p) ∧ ReadyToRetire r (s.lane l) ∧ r.tag = tag ∧ r.operation = .read start count
    ∧ r.stamp = (s.lane l).run.current ∧ p.first ≤ start ∧ start + count ≤ p.last + 1 ∧ (∀ x ∈ r.entries, x =
    .compared .mismatched) ∧ p.actions[1] = .note ∧ p.actions[5] = .note ∧ ((s.lane l).coverage.extents.length +
    count ≤ 64) ∧ ((s.lane l).defects.entries.length + count ≤ 24) :=
  ⟨0, 3, 1, 3, none,
    record 3 (.read 1 3) [.compared .mismatched, .compared .mismatched, .compared .mismatched], fillPlan,
    lane0 (withExtents [⟨5, 6, .written⟩] (withRecords [record 3 (.read 1 3) [.compared .mismatched, .compared .mismatched, .compared .mismatched]] (runningLane fillPlan))),
    sound_of_soundCheck (by decide +kernel), ⟨fillPlan, by decide +kernel, 9, by decide +kernel⟩,
    (by
    rintro a ⟨h, h2⟩
    have h : 1 ≤ a := h
    have h2 : a < 4 := h2
    obtain rfl | rfl | rfl : a = 1 ∨ a = 2 ∨ a = 3 := by omega
    all_goals decide +kernel),
    by decide +kernel⟩

theorem witness_MismatchedWriteLosesCredit_current : ∃ (l : LaneId) (tag : Tag) (start count : Nat) (e : Option Nat) (r : Record) (p : Plan) (s : State),
    Sound s ∧ LeavesOpen (fun _ => False) (s.lane l) ∧ s.takesEvents l = true ∧ ((s.lane l).run.plan = some p) ∧
    ReadyToRetire r (s.lane l) ∧ r.tag = tag ∧ r.operation = .write start count ∧ r.marker = none ∧ ((s.lane
    l).run.state = .running) ∧ r.stamp = (s.lane l).run.current ∧ 1 ≤ count ∧ (∀ x ∈ r.entries, x = .compared
    .mismatched) ∧ p.first ≤ start ∧ start + count ≤ p.last + 1 ∧ p.actions[0] = .note ∧ ((s.lane
    l).coverage.extents.length ≤ 63) :=
  ⟨0, 3, 7, 3, none,
    record 3 (.write 7 3) [.compared .mismatched, .compared .mismatched, .compared .mismatched], fillPlan,
    lane0 (withExtents [⟨0, 8, .written⟩] (withRecords [record 3 (.write 7 3) [.compared .mismatched, .compared .mismatched, .compared .mismatched]] (runningLane fillPlan))),
    sound_of_soundCheck (by decide +kernel), ⟨fillPlan, by decide +kernel, 9, by decide +kernel⟩,
    by decide +kernel⟩

theorem witness_MismatchedWriteLosesCredit_stale : ∃ (l : LaneId) (tag : Tag) (start count : Nat) (e : Option Nat) (r : Record) (p : Plan) (s : State) (status : Status),
    Sound s ∧ (status = .error → ∀ k, e = some k → Addresses r.operation k → ¬ InTarget (s.lane l) k) ∧
    LeavesOpen (fun _ => False) (s.lane l) ∧ s.takesEvents l = true ∧ ((s.lane l).run.plan = some p) ∧
    ReadyToRetire r (s.lane l) ∧ r.tag = tag ∧ r.operation = .write start count ∧ r.marker = none ∧ (((s.lane
    l).run.state = .running ∧ r.stamp ≠ (s.lane l).run.current) ∨ (s.lane l).run.state = .suspended) ∧
    p.actions[0] = .note ∧ p.actions[2] = .note ∧ p.actions[3] = .note ∧ ((s.lane l).coverage.extents.length ≤
    63) ∧ ((s.lane l).run.state = .running) :=
  ⟨0, 3, 8, 4, some 11,
    { record 3 (.write 8 4) [.compared .matched, .notCaptured, .compared .mismatched, .notCaptured] with stamp := none },
    fillPlan,
    lane0 (withExtents [⟨0, 8, .written⟩] (withRecords [{ record 3 (.write 8 4) [.compared .matched, .notCaptured, .compared .mismatched, .notCaptured] with stamp := none }] (runningLane fillPlan))),
    .error, sound_of_soundCheck (by decide +kernel),
    (fun _ k h => by
    obtain rfl : 11 = k := Option.some.inj h
    rintro - ⟨p, hp, -, h2⟩
    obtain rfl : fillPlan = p := Option.some.inj (Eq.trans (by decide +kernel) hp)
    exact absurd h2 (by decide)),
    ⟨fillPlan, by decide +kernel, 9, by decide +kernel⟩, by decide +kernel⟩

theorem witness_MismatchedWriteLosesCredit_suspended : ∃ (l : LaneId) (tag : Tag) (start count : Nat) (e : Option Nat) (r : Record) (p : Plan) (s : State) (status : Status),
    Sound s ∧ (status = .error → ∀ k, e = some k → Addresses r.operation k → ¬ InTarget (s.lane l) k) ∧
    LeavesOpen (fun _ => False) (s.lane l) ∧ s.takesEvents l = true ∧ ((s.lane l).run.plan = some p) ∧
    ReadyToRetire r (s.lane l) ∧ r.tag = tag ∧ r.operation = .write start count ∧ r.marker = none ∧ (((s.lane
    l).run.state = .running ∧ r.stamp ≠ (s.lane l).run.current) ∨ (s.lane l).run.state = .suspended) ∧
    p.actions[0] = .note ∧ p.actions[2] = .note ∧ p.actions[3] = .note ∧ ((s.lane l).coverage.extents.length ≤
    63) ∧ (r.stamp = (s.lane l).run.current) :=
  ⟨0, 3, 8, 4, none,
    record 3 (.write 8 4) [.compared .matched, .compared .mismatched, .notCaptured, .notCaptured], fillPlan,
    lane0 (suspended (withExtents [⟨0, 8, .written⟩] (withRecords [record 3 (.write 8 4) [.compared .matched, .compared .mismatched, .notCaptured, .notCaptured]] (runningLane fillPlan)))),
    .good, sound_of_soundCheck (by decide +kernel), (fun h => by cases h),
    ⟨fillPlan, by decide +kernel, 9, by decide +kernel⟩, by decide +kernel⟩

theorem witness_MismatchedWriteLosesCredit_foreign : ∃ (l : LaneId) (tag : Tag) (start count : Nat) (e : Option Nat) (r : Record) (p : Plan) (s : State),
    Sound s ∧ (∀ a, Addresses r.operation a → ¬ InTarget (s.lane l) a) ∧ (∃ a, Addresses r.operation a ∧ (s.lane
    l).run.anchor ≠ some a) ∧ s.takesEvents l = true ∧ ((s.lane l).run.plan = some p) ∧ ReadyToRetire r (s.lane
    l) ∧ r.tag = tag ∧ r.operation = .write start count ∧ r.marker = none ∧ ((s.lane l).run.state = .running) ∧
    r.stamp = (s.lane l).run.current ∧ p.actions[3] = .note :=
  ⟨0, 3, 500, 2, none, record 3 (.write 500 2) (List.replicate 2 .notCaptured), fillPlan,
    lane0 (withExtents [] (withRecords [record 3 (.write 500 2) (List.replicate 2 .notCaptured)] (runningLane fillPlan))),
    sound_of_soundCheck (by decide +kernel),
    (by
    rintro a ⟨h, -⟩ ⟨p, hp, -, h2⟩
    obtain rfl : fillPlan = p := Option.some.inj (Eq.trans (by decide +kernel) hp)
    have h : 500 ≤ a := h
    have h2 : a ≤ 9 := h2
    omega),
    ⟨501, by decide +kernel⟩, by decide +kernel⟩

theorem witness_MismatchedWriteLosesCredit_anchor_alone : ∃ (l : LaneId) (tag : Tag) (start count : Nat) (e : Option Nat) (r : Record) (p : Plan) (s : State),
    Sound s ∧ (∀ a, Addresses r.operation a → ¬ InTarget (s.lane l) a) ∧ (∀ a, Addresses r.operation a → (s.lane
    l).run.anchor = some a) ∧ s.takesEvents l = true ∧ ((s.lane l).run.plan = some p) ∧ ReadyToRetire r (s.lane
    l) ∧ r.tag = tag ∧ r.operation = .write start count ∧ r.marker = none ∧ ((s.lane l).run.state = .running) ∧
    r.stamp = (s.lane l).run.current ∧ p.actions[3] = .note :=
  ⟨0, 3, 500, 1, none, record 3 (.write 500 1) (List.replicate 1 .notCaptured), fillPlan,
    lane0 (withExtents [] (withRecords [record 3 (.write 500 1) (List.replicate 1 .notCaptured)] (runningLane fillPlan))),
    sound_of_soundCheck (by decide +kernel),
    (by
    rintro a ⟨h, -⟩ ⟨p, hp, -, h2⟩
    obtain rfl : fillPlan = p := Option.some.inj (Eq.trans (by decide +kernel) hp)
    have h : 500 ≤ a := h
    have h2 : a ≤ 9 := h2
    omega),
    (by
    rintro a ⟨h, h2⟩
    obtain rfl : a = 500 := Nat.le_antisymm (Nat.le_of_lt_succ h2) h
    decide +kernel),
    by decide +kernel⟩

theorem witness_MismatchedWriteLosesCredit_foreign_in_part : ∃ (l : LaneId) (tag : Tag) (start count : Nat) (e : Option Nat) (r : Record) (p : Plan) (s : State) (status : Status),
    Sound s ∧ (∃ a, Addresses r.operation a ∧ ¬ InTarget (s.lane l) a ∧ (s.lane l).run.anchor ≠ some a) ∧
    s.takesEvents l = true ∧ ((s.lane l).run.plan = some p) ∧ ReadyToRetire r (s.lane l) ∧ r.tag = tag ∧
    r.operation = .write start count ∧ r.marker = none ∧ ((s.lane l).run.state = .running ∨ (s.lane l).run.state
    = .suspended) :=
  ⟨0, 3, 8, 4, none,
    record 3 (.write 8 4) [.compared .matched, .compared .mismatched, .notCaptured, .notCaptured], fillPlan,
    lane0 (withExtents [] (withRecords [record 3 (.write 8 4) [.compared .matched, .compared .mismatched, .notCaptured, .notCaptured]] (runningLane fillPlan))),
    .error, sound_of_soundCheck (by decide +kernel),
    ⟨10, by decide +kernel, by
      rintro ⟨p, hp, -, h2⟩
      obtain rfl : fillPlan = p := Option.some.inj (Eq.trans (by decide +kernel) hp)
      exact absurd h2 (by decide), by decide +kernel⟩,
    by decide +kernel⟩

theorem witness_ErrorSectorIsListed_write : ∃ (l : LaneId) (tag : Tag) (e : Nat) (r : Record) (k : Stamp) (kind : DefectKind) (s : State),
    Sound s ∧ (∀ x ∈ r.entries, x ≠ .compared .mismatched ∧ ∀ n, x ≠ .marker n .mismatched) ∧ InTarget (s.lane
    l) e ∧ s.takesEvents l = true ∧ ((s.lane l).run.state = .running ∨ (s.lane l).run.state = .suspended) ∧
    ((s.lane l).run.current = some k) ∧ ReadyToRetire r (s.lane l) ∧ r.tag = tag ∧ ((r.operation.isWrite = true
    ∧ kind = .writeFail) ∨ (isRead r.operation = true ∧ kind = .readFail)) ∧ Addresses r.operation e ∧ ((s.lane
    l).defects.lists e = false) ∧ ((s.lane l).defects.entries.length < 24) :=
  ⟨0, 3, 2, record 3 (.write 1 3) [.compared .matched, .notCaptured, .notCaptured], ⟨1, 1⟩, .writeFail,
    lane0 (withExtents [⟨0, 8, .written⟩] (withRecords [record 3 (.write 1 3) [.compared .matched, .notCaptured, .notCaptured]] (runningLane fillPlan))),
    sound_of_soundCheck (by decide +kernel), (by simp [record]), ⟨fillPlan, by decide +kernel⟩,
    by decide +kernel⟩

theorem witness_ErrorSectorIsListed_23_entries : ∃ (l : LaneId) (tag : Tag) (e : Nat) (r : Record) (k : Stamp) (kind : DefectKind) (s : State),
    Sound s ∧ (∀ x ∈ r.entries, x ≠ .compared .mismatched ∧ ∀ n, x ≠ .marker n .mismatched) ∧ InTarget (s.lane
    l) e ∧ s.takesEvents l = true ∧ ((s.lane l).run.state = .running ∨ (s.lane l).run.state = .suspended) ∧
    ((s.lane l).run.current = some k) ∧ ReadyToRetire r (s.lane l) ∧ r.tag = tag ∧ ((r.operation.isWrite = true
    ∧ kind = .writeFail) ∨ (isRead r.operation = true ∧ kind = .readFail)) ∧ Addresses r.operation e ∧ ((s.lane
    l).defects.lists e = false) ∧ ((s.lane l).defects.entries.length = 23 ∧ ∀ d ∈ (s.lane l).defects.entries,
    d.first + d.count ≠ e ∧ d.first ≠ e + 1) :=
  ⟨0, 3, 60, record 3 (.read 60 1) [.notCaptured], ⟨1, 1⟩, .readFail,
    lane0 (suspended (withDefects ((List.range 23).map (fun i => ⟨2 * i, 1, .readFail, 1⟩)) (withRecords [record 3 (.read 60 1) [.notCaptured]] (runningLane { fillPlan with last := 99 })))),
    sound_of_soundCheck (by decide +kernel), (by simp [record]),
    ⟨{ fillPlan with last := 99 }, by decide +kernel⟩, by decide +kernel⟩

theorem witness_ErrorSectorIsListed_24_entries : ∃ (l : LaneId) (tag : Tag) (e : Nat) (r : Record) (k : Stamp) (kind : DefectKind) (s : State),
    Sound s ∧ (∀ x ∈ r.entries, x ≠ .compared .mismatched ∧ ∀ n, x ≠ .marker n .mismatched) ∧ InTarget (s.lane
    l) e ∧ s.takesEvents l = true ∧ ((s.lane l).run.state = .running ∨ (s.lane l).run.state = .suspended) ∧
    ((s.lane l).run.current = some k) ∧ ReadyToRetire r (s.lane l) ∧ r.tag = tag ∧ ((r.operation.isWrite = true
    ∧ kind = .writeFail) ∨ (isRead r.operation = true ∧ kind = .readFail)) ∧ Addresses r.operation e ∧ ((s.lane
    l).defects.lists e = false) ∧ ((s.lane l).defects.entries.length = 24 ∧ ∀ d ∈ (s.lane l).defects.entries,
    d.first + d.count ≠ e ∧ d.first ≠ e + 1) :=
  ⟨0, 3, 60, record 3 (.read 60 1) [.notCaptured], ⟨1, 1⟩, .readFail,
    lane0 (suspended (withDefects ((List.range 24).map (fun i => ⟨2 * i, 1, .readFail, 1⟩)) (withRecords [record 3 (.read 60 1) [.notCaptured]] (runningLane { fillPlan with last := 99 })))),
    sound_of_soundCheck (by decide +kernel), (by simp [record]),
    ⟨{ fillPlan with last := 99 }, by decide +kernel⟩, by decide +kernel⟩

theorem witness_RetiredFlushPromotes_promotes : ∃ (l : LaneId) (tag : Tag) (number : Nat) (e : Option Nat) (r : Record) (s : State),
    Sound s ∧ (∃ p, (s.lane l).run.plan = some p ∧ ∃ a, p.first ≤ a ∧ a ≤ p.last ∧ conditionOf (s.lane
    l).coverage.extents a = none ∧ (s.lane l).defects.lists a = false) ∧ (∃ a k, conditionOf (s.lane
    l).coverage.extents a = some (.cached k) ∧ k ≤ number ∧ number < 4294967295) ∧ s.takesEvents l = true ∧
    ((s.lane l).run.state = .running ∨ (s.lane l).run.state = .suspended) ∧ r ∈ (s.lane l).tracker.records ∧
    r.tag = tag ∧ r.operation = .flush number ∧ r.marker = none :=
  ⟨0, 3, 2, none, record 3 (.flush 2) [],
    lane0 (withExtents [⟨0, 1, .cached 2⟩, ⟨3, 3, .cached 3⟩] (withRecords [record 3 (.flush 2) []] (runningLane flushPlan))),
    sound_of_soundCheck (by decide +kernel), ⟨flushPlan, by decide +kernel, 9, by decide +kernel⟩,
    ⟨0, 2, by decide +kernel⟩, by decide +kernel⟩

theorem witness_RetiredFlushPromotes_greatest_number : ∃ (l : LaneId) (tag : Tag) (number : Nat) (e : Option Nat) (r : Record) (s : State),
    Sound s ∧ (∃ p, (s.lane l).run.plan = some p ∧ ∃ a, p.first ≤ a ∧ a ≤ p.last ∧ conditionOf (s.lane
    l).coverage.extents a = none ∧ (s.lane l).defects.lists a = false) ∧ s.takesEvents l = true ∧ ((s.lane
    l).run.state = .running ∨ (s.lane l).run.state = .suspended) ∧ r ∈ (s.lane l).tracker.records ∧ r.tag = tag
    ∧ r.operation = .flush number ∧ r.marker = none ∧ (number = 4294967295) :=
  ⟨0, 3, 4294967295, none, record 3 (.flush 4294967295) [],
    lane0 ((withExtents [⟨0, 1, .cached 2⟩] (withRecords [record 3 (.flush 4294967295) []] (runningLane flushPlan))).modifyTracker (fun t => { t with epoch := 4294967295 })),
    sound_of_soundCheck (by decide +kernel), ⟨flushPlan, by decide +kernel, 9, by decide +kernel⟩,
    by decide +kernel⟩

theorem witness_DiscardRemovesCredit_good : ∃ (l : LaneId) (tag : Tag) (start count : Nat) (status : Status) (e : Option Nat) (r : Record) (p : Plan) (s : State),
    Sound s ∧ (∃ a, Addresses r.operation a ∧ p.first ≤ a ∧ a ≤ p.last) ∧ LeavesOpen (fun _ => False) (s.lane l)
    ∧ s.takesEvents l = true ∧ ((s.lane l).run.state = .running ∨ (s.lane l).run.state = .suspended) ∧ ((s.lane
    l).run.plan = some p) ∧ r ∈ (s.lane l).tracker.records ∧ r.tag = tag ∧ r.operation = .discard start count ∧
    r.marker = none ∧ r.outstanding = 0 ∧ p.actions[2] = .note ∧ p.actions[3] = .note ∧ ((s.lane
    l).coverage.extents.length ≤ 63) ∧ (status = .good) :=
  ⟨0, 3, 8, 4, .good, none, record 3 (.discard 8 4) [.notCaptured, .notCaptured, .notCaptured, .notCaptured],
    fillPlan,
    lane0 (withExtents [⟨0, 8, .written⟩] (withRecords [record 3 (.discard 8 4) [.notCaptured, .notCaptured, .notCaptured, .notCaptured]] (runningLane fillPlan))),
    sound_of_soundCheck (by decide +kernel), ⟨9, by decide +kernel⟩,
    ⟨fillPlan, by decide +kernel, 9, by decide +kernel⟩, by decide +kernel⟩

theorem witness_DiscardRemovesCredit_error : ∃ (l : LaneId) (tag : Tag) (start count : Nat) (status : Status) (e : Option Nat) (r : Record) (p : Plan) (s : State),
    Sound s ∧ (∃ a, Addresses r.operation a ∧ p.first ≤ a ∧ a ≤ p.last) ∧ LeavesOpen (fun _ => False) (s.lane l)
    ∧ s.takesEvents l = true ∧ ((s.lane l).run.state = .running ∨ (s.lane l).run.state = .suspended) ∧ ((s.lane
    l).run.plan = some p) ∧ r ∈ (s.lane l).tracker.records ∧ r.tag = tag ∧ r.operation = .discard start count ∧
    r.marker = none ∧ r.outstanding = 0 ∧ p.actions[2] = .note ∧ p.actions[3] = .note ∧ ((s.lane
    l).coverage.extents.length ≤ 63) ∧ (status = .error) :=
  ⟨0, 3, 8, 4, .error, some 9,
    record 3 (.discard 8 4) [.notCaptured, .notCaptured, .notCaptured, .notCaptured], fillPlan,
    lane0 (withExtents [⟨0, 8, .written⟩] (withRecords [record 3 (.discard 8 4) [.notCaptured, .notCaptured, .notCaptured, .notCaptured]] (runningLane fillPlan))),
    sound_of_soundCheck (by decide +kernel), ⟨9, by decide +kernel⟩,
    ⟨fillPlan, by decide +kernel, 9, by decide +kernel⟩, by decide +kernel⟩

theorem witness_RetirementGroupIsOrdered : ∃ (taken : Option TakenMarker) (r : Record) (x : Lane),
    LaneLaw x ∧ ((handOver taken r x).faults.length = 2) :=
  ⟨none,
    { record 3 (.write 1 3) [.compared .matched, .notCaptured, .notCaptured] with completion := some ⟨.error, some 2⟩ },
    runningLane fillPlan, laneLaw_of_laneCheck (by decide +kernel), by decide +kernel⟩

theorem witness_GroupActionIsStrongest : ∃ (c : RunControl) (p : Plan) (g : List LaneFault),
    c.plan = some p ∧ g ≠ [] :=
  ⟨(runningLane (actionPlan .fail)).run, actionPlan .fail, [⟨.mediumError, none⟩, ⟨.foreignWrite, some 12⟩],
    by decide +kernel⟩

theorem witness_PlanAcceptedStartsRun_idle : ∃ (l : LaneId) (tag : Tag) (start count : Nat) (e : Option Nat) (r : Record) (m : MarkerCopy) (size : SectorSize) (s : State),
    Sound s ∧ s.takesEvents l = true ∧ ((s.lane l).tap.sectorSize = some size) ∧ ((s.lane l).run.state = .idle ∨
    (s.lane l).run.state = .rejected ∨ (s.lane l).run.state = .issued) ∧ ReadyToRetire r (s.lane l) ∧ r.tag =
    tag ∧ r.operation = .write start count ∧ r.marker = some m ∧ ((m.words.getD 2 0).toNat % 256 = 1) ∧
    planFailure (decide (s.store.status ≠ .starting)) size m.words = none ∧ ((s.lane l).run.state = .idle) :=
  ⟨0, 3, 500, 1, none, markerRecord 1 planWords, ⟨0, planWords⟩, .bytes512,
    lane0 (withRecords [markerRecord 1 planWords] (idleLane)), sound_of_soundCheck (by decide +kernel),
    by decide +kernel⟩

theorem witness_PlanRefusedRejectsLane_idle : ∃ (l : LaneId) (tag : Tag) (start count : Nat) (e : Option Nat) (r : Record) (m : MarkerCopy) (size : SectorSize) (reason : RefusalReason) (s : State),
    Sound s ∧ s.takesEvents l = true ∧ ((s.lane l).tap.sectorSize = some size) ∧ ((s.lane l).run.state = .idle ∨
    (s.lane l).run.state = .rejected ∨ (s.lane l).run.state = .issued) ∧ ReadyToRetire r (s.lane l) ∧ r.tag =
    tag ∧ r.operation = .write start count ∧ r.marker = some m ∧ ((m.words.getD 2 0).toNat % 256 = 1) ∧
    planFailure (decide (s.store.status ≠ .starting)) size m.words = some reason ∧ ((s.lane l).run.state =
    .idle) :=
  ⟨0, 3, 500, 1, none, markerRecord 1 (controlWords 1), ⟨0, controlWords 1⟩, .bytes512, .passes,
    lane0 (withRecords [markerRecord 1 (controlWords 1)] (idleLane)), sound_of_soundCheck (by decide +kernel),
    by decide +kernel⟩

theorem witness_PlanAcceptedStartsRun_rejected : ∃ (l : LaneId) (tag : Tag) (start count : Nat) (e : Option Nat) (r : Record) (m : MarkerCopy) (size : SectorSize) (s : State),
    Sound s ∧ s.takesEvents l = true ∧ ((s.lane l).tap.sectorSize = some size) ∧ ((s.lane l).run.state = .idle ∨
    (s.lane l).run.state = .rejected ∨ (s.lane l).run.state = .issued) ∧ ReadyToRetire r (s.lane l) ∧ r.tag =
    tag ∧ r.operation = .write start count ∧ r.marker = some m ∧ ((m.words.getD 2 0).toNat % 256 = 1) ∧
    planFailure (decide (s.store.status ≠ .starting)) size m.words = none ∧ ((s.lane l).run.state = .rejected) :=
  ⟨0, 3, 500, 1, none, markerRecord 1 planWords, ⟨0, planWords⟩, .bytes512,
    lane0 (withRecords [markerRecord 1 planWords] (rejectedLane)), sound_of_soundCheck (by decide +kernel),
    by decide +kernel⟩

theorem witness_PlanRefusedRejectsLane_rejected : ∃ (l : LaneId) (tag : Tag) (start count : Nat) (e : Option Nat) (r : Record) (m : MarkerCopy) (size : SectorSize) (reason : RefusalReason) (s : State),
    Sound s ∧ s.takesEvents l = true ∧ ((s.lane l).tap.sectorSize = some size) ∧ ((s.lane l).run.state = .idle ∨
    (s.lane l).run.state = .rejected ∨ (s.lane l).run.state = .issued) ∧ ReadyToRetire r (s.lane l) ∧ r.tag =
    tag ∧ r.operation = .write start count ∧ r.marker = some m ∧ ((m.words.getD 2 0).toNat % 256 = 1) ∧
    planFailure (decide (s.store.status ≠ .starting)) size m.words = some reason ∧ ((s.lane l).run.state =
    .rejected) :=
  ⟨0, 3, 500, 1, none, markerRecord 1 (controlWords 1), ⟨0, controlWords 1⟩, .bytes512, .passes,
    lane0 (withRecords [markerRecord 1 (controlWords 1)] (rejectedLane)),
    sound_of_soundCheck (by decide +kernel), by decide +kernel⟩

theorem witness_PlanAcceptedStartsRun_issued : ∃ (l : LaneId) (tag : Tag) (start count : Nat) (e : Option Nat) (r : Record) (m : MarkerCopy) (size : SectorSize) (s : State),
    Sound s ∧ s.takesEvents l = true ∧ ((s.lane l).tap.sectorSize = some size) ∧ ((s.lane l).run.state = .idle ∨
    (s.lane l).run.state = .rejected ∨ (s.lane l).run.state = .issued) ∧ ReadyToRetire r (s.lane l) ∧ r.tag =
    tag ∧ r.operation = .write start count ∧ r.marker = some m ∧ ((m.words.getD 2 0).toNat % 256 = 1) ∧
    planFailure (decide (s.store.status ≠ .starting)) size m.words = none ∧ ((s.lane l).run.state = .issued) :=
  ⟨0, 3, 500, 1, none, markerRecord 1 planWords, ⟨0, planWords⟩, .bytes512,
    issued0 (withRecords [markerRecord 1 planWords] (issuedLane)), sound_of_soundCheck (by decide +kernel),
    by decide +kernel⟩

theorem witness_PlanRefusedRejectsLane_issued : ∃ (l : LaneId) (tag : Tag) (start count : Nat) (e : Option Nat) (r : Record) (m : MarkerCopy) (size : SectorSize) (reason : RefusalReason) (s : State),
    Sound s ∧ s.takesEvents l = true ∧ ((s.lane l).tap.sectorSize = some size) ∧ ((s.lane l).run.state = .idle ∨
    (s.lane l).run.state = .rejected ∨ (s.lane l).run.state = .issued) ∧ ReadyToRetire r (s.lane l) ∧ r.tag =
    tag ∧ r.operation = .write start count ∧ r.marker = some m ∧ ((m.words.getD 2 0).toNat % 256 = 1) ∧
    planFailure (decide (s.store.status ≠ .starting)) size m.words = some reason ∧ ((s.lane l).run.state =
    .issued) :=
  ⟨0, 3, 500, 1, none, markerRecord 1 (controlWords 1), ⟨0, controlWords 1⟩, .bytes512, .passes,
    issued0 (withRecords [markerRecord 1 (controlWords 1)] (issuedLane)),
    sound_of_soundCheck (by decide +kernel), by decide +kernel⟩

theorem witness_ControlMarkersAct_halt : ∃ (l : LaneId) (tag : Tag) (start kind : Nat) (e : Option Nat) (r : Record) (w : List Word) (s : State),
    Sound s ∧ (∃ o, r.entries = [.marker kind o]) ∧ s.takesEvents l = true ∧ ReadyToRetire r (s.lane l) ∧ r.tag
    = tag ∧ r.operation = .write start 1 ∧ r.marker = some ⟨0, w⟩ ∧ ((s.lane l).run.anchor = some start) ∧
    ((w.take 8).foldr (· + ·) 0 = 0) ∧ w.getD 2 0 = BitVec.ofNat 32 (kind + 256) ∧ w.getD 5 0 = 0 ∧ w.getD 6 0 =
    0 ∧ ((s.lane l).run.runId = some (w.getD 4 0 ++ w.getD 3 0)) ∧ (kind = 3) ∧ (r.stamp = (s.lane
    l).run.current) :=
  ⟨0, 3, 500, 3, none, markerRecord 3 (controlWords 3), controlWords 3,
    lane0 (withRecords [markerRecord 3 (controlWords 3)] (runningLane fillPlan)),
    sound_of_soundCheck (by decide +kernel), ⟨.matched, rfl⟩, by decide +kernel⟩

theorem witness_ControlMarkersAct_halt_suspended : ∃ (l : LaneId) (tag : Tag) (start kind : Nat) (e : Option Nat) (r : Record) (w : List Word) (s : State),
    Sound s ∧ (∃ o, r.entries = [.marker kind o]) ∧ s.takesEvents l = true ∧ ReadyToRetire r (s.lane l) ∧ r.tag
    = tag ∧ r.operation = .write start 1 ∧ r.marker = some ⟨0, w⟩ ∧ ((s.lane l).run.anchor = some start) ∧
    ((w.take 8).foldr (· + ·) 0 = 0) ∧ w.getD 2 0 = BitVec.ofNat 32 (kind + 256) ∧ w.getD 5 0 = 0 ∧ w.getD 6 0 =
    0 ∧ ((s.lane l).run.runId = some (w.getD 4 0 ++ w.getD 3 0)) ∧ (kind = 3) ∧ (r.stamp = (s.lane
    l).run.current) :=
  ⟨0, 3, 500, 3, none, markerRecord 3 (controlWords 3), controlWords 3,
    lane0 (withRecords [markerRecord 3 (controlWords 3)] (suspended (runningLane fillPlan))),
    sound_of_soundCheck (by decide +kernel), ⟨.matched, rfl⟩, by decide +kernel⟩

theorem witness_ControlMarkersAct_resume : ∃ (l : LaneId) (tag : Tag) (start kind : Nat) (e : Option Nat) (r : Record) (w : List Word) (s : State),
    Sound s ∧ (∃ o, r.entries = [.marker kind o]) ∧ (LeavesOpen (fun _ => False) (s.lane l)) ∧ s.takesEvents l =
    true ∧ ReadyToRetire r (s.lane l) ∧ r.tag = tag ∧ r.operation = .write start 1 ∧ r.marker = some ⟨0, w⟩ ∧
    ((s.lane l).run.anchor = some start) ∧ ((w.take 8).foldr (· + ·) 0 = 0) ∧ w.getD 2 0 = BitVec.ofNat 32 (kind
    + 256) ∧ w.getD 5 0 = 0 ∧ w.getD 6 0 = 0 ∧ ((s.lane l).run.runId = some (w.getD 4 0 ++ w.getD 3 0)) ∧ (kind
    = 2) ∧ (r.stamp = (s.lane l).run.current) :=
  ⟨0, 3, 500, 2, none, markerRecord 2 (controlWords 2), controlWords 2,
    lane0 (withRecords [markerRecord 2 (controlWords 2)] (suspended (runningLane fillPlan))),
    sound_of_soundCheck (by decide +kernel), ⟨.matched, rfl⟩,
    ⟨fillPlan, by decide +kernel, 9, by decide +kernel⟩, by decide +kernel⟩

theorem witness_ControlMarkersAct_release_issued : ∃ (l : LaneId) (tag : Tag) (start kind : Nat) (e : Option Nat) (r : Record) (w : List Word) (s : State),
    Sound s ∧ (∃ o, r.entries = [.marker kind o]) ∧ s.takesEvents l = true ∧ ReadyToRetire r (s.lane l) ∧ r.tag
    = tag ∧ r.operation = .write start 1 ∧ r.marker = some ⟨0, w⟩ ∧ ((s.lane l).run.anchor = some start) ∧
    ((w.take 8).foldr (· + ·) 0 = 0) ∧ w.getD 2 0 = BitVec.ofNat 32 (kind + 256) ∧ w.getD 5 0 = 0 ∧ w.getD 6 0 =
    0 ∧ ((s.lane l).run.runId = some (w.getD 4 0 ++ w.getD 3 0)) ∧ (kind = 4) :=
  ⟨0, 3, 500, 4, none, markerRecord 4 (controlWords 4), controlWords 4,
    issued0 (withRecords [markerRecord 4 (controlWords 4)] (issuedLane)),
    sound_of_soundCheck (by decide +kernel), ⟨.matched, rfl⟩, by decide +kernel⟩

theorem witness_ControlMarkersAct_release_rejected : ∃ (l : LaneId) (tag : Tag) (start kind : Nat) (e : Option Nat) (r : Record) (w : List Word) (s : State),
    Sound s ∧ (∃ o, r.entries = [.marker kind o]) ∧ s.takesEvents l = true ∧ ReadyToRetire r (s.lane l) ∧ r.tag
    = tag ∧ r.operation = .write start 1 ∧ r.marker = some ⟨0, w⟩ ∧ ((s.lane l).run.anchor = some start) ∧
    ((w.take 8).foldr (· + ·) 0 = 0) ∧ w.getD 2 0 = BitVec.ofNat 32 (kind + 256) ∧ w.getD 5 0 = 0 ∧ w.getD 6 0 =
    0 ∧ ((s.lane l).run.runId = some (w.getD 4 0 ++ w.getD 3 0)) ∧ (kind = 4) :=
  ⟨0, 3, 500, 4, none, markerRecord 4 (controlWords 4), controlWords 4,
    lane0 (withRecords [markerRecord 4 (controlWords 4)] (rejectedLane.modifyRun (fun c => { c with runId := some 1000, held := .rejection ⟨.check, 0, .bytes512, 1000⟩ }))),
    sound_of_soundCheck (by decide +kernel), ⟨.matched, rfl⟩, by decide +kernel⟩

theorem witness_LateWriteFailsRun_all_matched : ∃ (l : LaneId) (tag : Tag) (status : Status) (e : Option Nat) (r : Record) (s : State),
    Sound s ∧ (∃ q ∈ (s.lane l).tracker.records, q.tag ≠ tag) ∧ (¬ TooLate status e r (s.lane l)) ∧
    s.takesEvents l = true ∧ ((s.lane l).run.state = .closing) ∧ ReadyToRetire r (s.lane l) ∧ r.tag = tag ∧
    (r.operation.isWrite = true) :=
  ⟨0, 3, .good, none, record 3 (.write 9 2) [.compared .matched, .notCaptured],
    lane0 (closingLane [record 3 (.write 9 2) [.compared .matched, .notCaptured], record 4 (.read 0 1) [.notCaptured]]),
    sound_of_soundCheck (by decide +kernel), ⟨record 4 (.read 0 1) [.notCaptured], by decide +kernel⟩,
    (by
    rintro (⟨h, -⟩ | ⟨a, ⟨h, -⟩, ⟨p, hp, -, h2⟩, hn⟩)
    · exact h (by decide +kernel)
    · obtain rfl : fillPlan = p := Option.some.inj (Eq.trans (by decide +kernel) hp)
      obtain rfl : a = 9 := Nat.le_antisymm h2 h
      exact hn ⟨trivial, .compared .matched, rfl, rfl⟩),
    by decide +kernel⟩

theorem witness_LateWriteFailsRun_error_beyond_range : ∃ (l : LaneId) (tag : Tag) (status : Status) (e : Option Nat) (r : Record) (s : State),
    Sound s ∧ (∃ q ∈ (s.lane l).tracker.records, q.tag ≠ tag) ∧ (¬ TooLate status e r (s.lane l)) ∧
    s.takesEvents l = true ∧ ((s.lane l).run.state = .closing) ∧ ReadyToRetire r (s.lane l) ∧ r.tag = tag ∧
    (r.operation.isWrite = true) :=
  ⟨0, 3, .error, some 10, record 3 (.write 9 2) [.compared .matched, .notCaptured],
    lane0 (closingLane [record 3 (.write 9 2) [.compared .matched, .notCaptured], record 4 (.read 0 1) [.notCaptured]]),
    sound_of_soundCheck (by decide +kernel), ⟨record 4 (.read 0 1) [.notCaptured], by decide +kernel⟩,
    (by
    rintro (⟨h, -⟩ | ⟨a, ⟨h, -⟩, ⟨p, hp, -, h2⟩, hn⟩)
    · exact h (by decide +kernel)
    · obtain rfl : fillPlan = p := Option.some.inj (Eq.trans (by decide +kernel) hp)
      obtain rfl : a = 9 := Nat.le_antisymm h2 h
      exact hn ⟨⟨10, rfl, by decide⟩, .compared .matched, rfl, rfl⟩),
    by decide +kernel⟩

theorem witness_LateWriteFailsRun_not_matched : ∃ (l : LaneId) (tag : Tag) (status : Status) (e : Option Nat) (r : Record) (s : State),
    Sound s ∧ (∃ q ∈ (s.lane l).tracker.records, q.tag ≠ tag) ∧ (TooLate status e r (s.lane l)) ∧ s.takesEvents
    l = true ∧ ((s.lane l).run.state = .closing) ∧ ReadyToRetire r (s.lane l) ∧ r.tag = tag :=
  ⟨0, 3, .good, none, record 3 (.write 8 2) [.compared .matched, .notCaptured],
    lane0 (closingLane [record 3 (.write 8 2) [.compared .matched, .notCaptured], record 4 (.read 0 1) [.notCaptured]]),
    sound_of_soundCheck (by decide +kernel), ⟨record 4 (.read 0 1) [.notCaptured], by decide +kernel⟩,
    .inr ⟨9, by decide, ⟨fillPlan, by decide +kernel⟩, fun ⟨_, x, h, h2⟩ => by cases h; cases h2⟩,
    by decide +kernel⟩

theorem witness_LateWriteFailsRun_unplaced : ∃ (l : LaneId) (tag : Tag) (status : Status) (e : Option Nat) (r : Record) (s : State),
    Sound s ∧ (∃ q ∈ (s.lane l).tracker.records, q.tag ≠ tag) ∧ (TooLate status e r (s.lane l)) ∧ s.takesEvents
    l = true ∧ ((s.lane l).run.state = .closing) ∧ ReadyToRetire r (s.lane l) ∧ r.tag = tag :=
  ⟨0, 3, .error, none, record 3 (.write 8 2) [.compared .matched, .notCaptured],
    lane0 (closingLane [record 3 (.write 8 2) [.compared .matched, .notCaptured], record 4 (.read 0 1) [.notCaptured]]),
    sound_of_soundCheck (by decide +kernel), ⟨record 4 (.read 0 1) [.notCaptured], by decide +kernel⟩,
    .inr ⟨8, by decide, ⟨fillPlan, by decide +kernel⟩, fun ⟨⟨_, h, _⟩, _⟩ => by cases h⟩, by decide +kernel⟩

theorem witness_LateWriteFailsRun_error_sector : ∃ (l : LaneId) (tag : Tag) (status : Status) (e : Option Nat) (r : Record) (s : State),
    Sound s ∧ (∃ q ∈ (s.lane l).tracker.records, q.tag ≠ tag) ∧ (TooLate status e r (s.lane l)) ∧ s.takesEvents
    l = true ∧ ((s.lane l).run.state = .closing) ∧ ReadyToRetire r (s.lane l) ∧ r.tag = tag :=
  ⟨0, 3, .error, some 8, record 3 (.write 8 2) [.compared .matched, .notCaptured],
    lane0 (closingLane [record 3 (.write 8 2) [.compared .matched, .notCaptured], record 4 (.read 0 1) [.notCaptured]]),
    sound_of_soundCheck (by decide +kernel), ⟨record 4 (.read 0 1) [.notCaptured], by decide +kernel⟩,
    .inr ⟨8, by decide, ⟨fillPlan, by decide +kernel⟩, fun ⟨⟨_, h, _, h2⟩, _⟩ => by cases h; exact Nat.lt_irrefl 8 h2⟩,
    by decide +kernel⟩

theorem witness_LateWriteFailsRun_discard : ∃ (l : LaneId) (tag : Tag) (status : Status) (e : Option Nat) (r : Record) (s : State),
    Sound s ∧ (∃ q ∈ (s.lane l).tracker.records, q.tag ≠ tag) ∧ (TooLate status e r (s.lane l)) ∧ s.takesEvents
    l = true ∧ ((s.lane l).run.state = .closing) ∧ ReadyToRetire r (s.lane l) ∧ r.tag = tag :=
  ⟨0, 3, .good, none, record 3 (.discard 9 1) [.notCaptured],
    lane0 (closingLane [record 3 (.discard 9 1) [.notCaptured], record 4 (.read 0 1) [.notCaptured]]),
    sound_of_soundCheck (by decide +kernel), ⟨record 4 (.read 0 1) [.notCaptured], by decide +kernel⟩,
    ⟨9, by decide, fillPlan, by decide +kernel⟩, by decide +kernel⟩

theorem witness_LateWriteFailsRun_last_late : ∃ (l : LaneId) (tag : Tag) (status : Status) (e : Option Nat) (r : Record) (s : State),
    Sound s ∧ (TooLate status e r (s.lane l)) ∧ s.takesEvents l = true ∧ ((s.lane l).run.state = .closing) ∧
    ReadyToRetire r (s.lane l) ∧ r.tag = tag ∧ (∀ q ∈ (s.lane l).tracker.records, q.tag = tag) :=
  ⟨0, 3, .error, none, record 3 (.write 8 2) [.compared .matched, .notCaptured],
    lane0 (closingLane [record 3 (.write 8 2) [.compared .matched, .notCaptured]]),
    sound_of_soundCheck (by decide +kernel),
    .inr ⟨8, by decide, ⟨fillPlan, by decide +kernel⟩, fun ⟨⟨_, h, _⟩, _⟩ => by cases h⟩, by decide +kernel⟩

theorem witness_LateWriteFailsRun_last_in_time : ∃ (l : LaneId) (tag : Tag) (status : Status) (e : Option Nat) (r : Record) (s : State),
    Sound s ∧ (¬ TooLate status e r (s.lane l)) ∧ s.takesEvents l = true ∧ ((s.lane l).run.state = .closing) ∧
    ReadyToRetire r (s.lane l) ∧ r.tag = tag ∧ (∀ q ∈ (s.lane l).tracker.records, q.tag = tag) :=
  ⟨0, 3, .good, none, record 3 (.write 9 2) [.compared .matched, .notCaptured],
    lane0 (closingLane [record 3 (.write 9 2) [.compared .matched, .notCaptured]]),
    sound_of_soundCheck (by decide +kernel),
    (by
    rintro (⟨h, -⟩ | ⟨a, ⟨h, -⟩, ⟨p, hp, -, h2⟩, hn⟩)
    · exact h (by decide +kernel)
    · obtain rfl : fillPlan = p := Option.some.inj (Eq.trans (by decide +kernel) hp)
      obtain rfl : a = 9 := Nat.le_antisymm h2 h
      exact hn ⟨trivial, .compared .matched, rfl, rfl⟩),
    by decide +kernel⟩

theorem witness_WriteAfterIssueVoids_issued : ∃ (l : LaneId) (tag : Tag) (status : Status) (e : Option Nat) (r : Record) (s : State) (c : Certificate),
    Sound s ∧ TouchesRange r (s.lane l) ∧ s.takesEvents l = true ∧ ReadyToRetire r (s.lane l) ∧ r.tag = tag ∧
    ActsByNoMarker status r (s.lane l) ∧ ((s.lane l).run.state = .issued) ∧ ((s.lane l).run.held = .certificate
    c) :=
  ⟨0, 3, .good, none, record 3 (.write 8 2) [.compared .matched, .notCaptured],
    issued0 (withRecords [record 3 (.write 8 2) [.compared .matched, .notCaptured]] issuedLane),
    { snapshotOf 0 fillPlan ⟨.halted, .halt⟩ (runningLane fillPlan).halt.copyOpenCounts with issueNumber := 1 },
    sound_of_soundCheck (by decide +kernel), ⟨.inl (by decide), 9, by decide, fillPlan, by decide +kernel⟩,
    by decide +kernel⟩

theorem witness_WriteAfterIssueVoids_issued_marker_in_error : ∃ (l : LaneId) (tag : Tag) (status : Status) (e : Option Nat) (r : Record) (s : State) (c : Certificate),
    Sound s ∧ TouchesRange r (s.lane l) ∧ s.takesEvents l = true ∧ ReadyToRetire r (s.lane l) ∧ r.tag = tag ∧
    ActsByNoMarker status r (s.lane l) ∧ ((s.lane l).run.state = .issued) ∧ ((s.lane l).run.held = .certificate
    c) ∧ (status = .error ∧ r.marker ≠ none) :=
  ⟨0, 3, .error, none, markerIn8, issued0 (withRecords [markerIn8] issuedLane),
    { snapshotOf 0 fillPlan ⟨.halted, .halt⟩ (runningLane fillPlan).halt.copyOpenCounts with issueNumber := 1 },
    sound_of_soundCheck (by decide +kernel), ⟨.inl (by decide), 9, by decide, fillPlan, by decide +kernel⟩,
    by decide +kernel⟩

theorem witness_WriteAfterIssueVoids_issued_release_elsewhere : ∃ (l : LaneId) (tag : Tag) (status : Status) (e : Option Nat) (r : Record) (s : State) (c : Certificate),
    Sound s ∧ TouchesRange r (s.lane l) ∧ s.takesEvents l = true ∧ ReadyToRetire r (s.lane l) ∧ r.tag = tag ∧
    ActsByNoMarker status r (s.lane l) ∧ ((s.lane l).run.state = .issued) ∧ ((s.lane l).run.held = .certificate
    c) ∧ (status = .good ∧ r.marker ≠ none) :=
  ⟨0, 3, .good, none, markerIn8, issued0 (withRecords [markerIn8] issuedLane),
    { snapshotOf 0 fillPlan ⟨.halted, .halt⟩ (runningLane fillPlan).halt.copyOpenCounts with issueNumber := 1 },
    sound_of_soundCheck (by decide +kernel), ⟨.inl (by decide), 9, by decide, fillPlan, by decide +kernel⟩,
    by decide +kernel⟩

theorem witness_WriteAfterIssueVoids_issuing : ∃ (l : LaneId) (tag : Tag) (status : Status) (e : Option Nat) (r : Record) (s : State) (c : Certificate),
    Sound s ∧ TouchesRange r (s.lane l) ∧ s.takesEvents l = true ∧ ReadyToRetire r (s.lane l) ∧ r.tag = tag ∧
    ActsByNoMarker status r (s.lane l) ∧ ((s.lane l).run.state = .issuing) ∧ ((s.lane l).run.held = .pending c) :=
  ⟨0, 3, .error, none, record 3 (.discard 9 1) [.notCaptured],
    (issuing01 1).modifyLane 0 (withRecords [record 3 (.discard 9 1) [.notCaptured]]),
    snapshotOf 0 fillPlan ⟨.halted, .halt⟩ (runningLane fillPlan).halt.copyOpenCounts,
    sound_of_soundCheck (by decide +kernel), ⟨.inr ⟨9, 1, rfl⟩, 9, by decide, fillPlan, by decide +kernel⟩,
    by decide +kernel⟩

theorem witness_WriteAfterIssueVoids_idle : ∃ (l : LaneId) (tag : Tag) (status : Status) (e : Option Nat) (r : Record) (s : State),
    Sound s ∧ ((s.lane l).run.state = .idle ∨ (s.lane l).run.state = .rejected ∨ (((s.lane l).run.state =
    .issuing ∨ (s.lane l).run.state = .issued) ∧ ¬ TouchesRange r (s.lane l))) ∧ s.takesEvents l = true ∧
    ReadyToRetire r (s.lane l) ∧ r.tag = tag ∧ ActsByNoMarker status r (s.lane l) ∧ ((s.lane l).run.state =
    .idle) :=
  ⟨0, 3, .error, some 0, record 3 (.read 0 1) [.notCaptured],
    lane0 (withRecords [record 3 (.read 0 1) [.notCaptured]] idleLane),
    sound_of_soundCheck (by decide +kernel), .inl rfl, by decide +kernel⟩

theorem witness_WriteAfterIssueVoids_rejected : ∃ (l : LaneId) (tag : Tag) (status : Status) (e : Option Nat) (r : Record) (s : State),
    Sound s ∧ ((s.lane l).run.state = .idle ∨ (s.lane l).run.state = .rejected ∨ (((s.lane l).run.state =
    .issuing ∨ (s.lane l).run.state = .issued) ∧ ¬ TouchesRange r (s.lane l))) ∧ s.takesEvents l = true ∧
    ReadyToRetire r (s.lane l) ∧ r.tag = tag ∧ ActsByNoMarker status r (s.lane l) ∧ ((s.lane l).run.state =
    .rejected) :=
  ⟨0, 3, .error, none, record 3 (.write 8 2) [.compared .matched, .notCaptured],
    lane0 (withRecords [record 3 (.write 8 2) [.compared .matched, .notCaptured]] rejectedLane),
    sound_of_soundCheck (by decide +kernel), .inr (.inl rfl), by decide +kernel⟩

theorem witness_WriteAfterIssueVoids_issued_read : ∃ (l : LaneId) (tag : Tag) (status : Status) (e : Option Nat) (r : Record) (s : State),
    Sound s ∧ ((s.lane l).run.state = .idle ∨ (s.lane l).run.state = .rejected ∨ (((s.lane l).run.state =
    .issuing ∨ (s.lane l).run.state = .issued) ∧ ¬ TouchesRange r (s.lane l))) ∧ s.takesEvents l = true ∧
    ReadyToRetire r (s.lane l) ∧ r.tag = tag ∧ ActsByNoMarker status r (s.lane l) ∧ ((s.lane l).run.state =
    .issued) :=
  ⟨0, 3, .error, some 0, record 3 (.read 0 1) [.notCaptured],
    issued0 (withRecords [record 3 (.read 0 1) [.notCaptured]] issuedLane),
    sound_of_soundCheck (by decide +kernel), .inr (.inr ⟨.inr rfl, by rintro ⟨h | ⟨_, _, h⟩, -⟩ <;> cases h⟩),
    by decide +kernel⟩

theorem witness_WriteAfterIssueVoids_issuing_outside : ∃ (l : LaneId) (tag : Tag) (status : Status) (e : Option Nat) (r : Record) (s : State),
    Sound s ∧ ((s.lane l).run.state = .idle ∨ (s.lane l).run.state = .rejected ∨ (((s.lane l).run.state =
    .issuing ∨ (s.lane l).run.state = .issued) ∧ ¬ TouchesRange r (s.lane l))) ∧ s.takesEvents l = true ∧
    ReadyToRetire r (s.lane l) ∧ r.tag = tag ∧ ActsByNoMarker status r (s.lane l) ∧ ((s.lane l).run.state =
    .issuing) :=
  ⟨0, 3, .good, none, record 3 (.write 10 1) [.compared .matched],
    (issuing01 1).modifyLane 0 (withRecords [record 3 (.write 10 1) [.compared .matched]]),
    sound_of_soundCheck (by decide +kernel),
    .inr (.inr ⟨.inl (by decide +kernel), by
    rintro ⟨-, a, ⟨h, -⟩, p, hp, -, h2⟩
    obtain rfl : fillPlan = p := Option.some.inj (Eq.trans (by decide +kernel) hp)
    exact absurd (Nat.le_trans h h2) (by decide)⟩),
    by decide +kernel⟩

theorem witness_RemovalKeepsCapacity_fits : ∃ (m : List Extent) (sectors : List Nat),
    MapForm m ∧ sectors.Pairwise (· < ·) ∧ ((cutSpans (spansOf sectors) m).length = 64) :=
  ⟨(List.range 64).map (fun i => ⟨10 * i, 10 * i + 4, .written⟩), [0, 1], by decide +kernel⟩

theorem witness_RemovalKeepsCapacity_does_not_fit : ∃ (m : List Extent) (sectors : List Nat),
    MapForm m ∧ sectors.Pairwise (· < ·) ∧ ((cutSpans (spansOf sectors) m).length = 65) :=
  ⟨(List.range 64).map (fun i => ⟨10 * i, 10 * i + 4, .written⟩), [1], by decide +kernel⟩

theorem witness_CompletenessMeansEverySector_none : ∃ (x : Lane) (p : Plan) (k : Stamp) (d : PassDef),
    LaneLaw x ∧ x.run.plan = some p ∧ p.first ≤ p.last ∧ x.run.current = some k ∧ p.passes[k.pass - 1]? = some d
    ∧ (d.verify = .sampled → 2 ≤ d.stride ∧ d.phase < d.stride) ∧ (d.verify = .none) :=
  ⟨withExtents [⟨0, 0, .verified⟩, ⟨1, 2, .written⟩, ⟨3, 3, .verified⟩] (runningLane (verifyPlan .none)),
    verifyPlan .none, ⟨1, 1⟩, ⟨.fill, .none, 7, 0, 4, 3⟩, laneLaw_of_laneCheck (by decide +kernel),
    by decide +kernel⟩

theorem witness_CompletenessMeansEverySector_full : ∃ (x : Lane) (p : Plan) (k : Stamp) (d : PassDef),
    LaneLaw x ∧ x.run.plan = some p ∧ p.first ≤ p.last ∧ x.run.current = some k ∧ p.passes[k.pass - 1]? = some d
    ∧ (d.verify = .sampled → 2 ≤ d.stride ∧ d.phase < d.stride) ∧ (d.verify = .full) :=
  ⟨withExtents [⟨0, 0, .verified⟩, ⟨1, 2, .written⟩, ⟨3, 3, .verified⟩] (runningLane (verifyPlan .full)),
    verifyPlan .full, ⟨1, 1⟩, ⟨.fill, .full, 7, 0, 4, 3⟩, laneLaw_of_laneCheck (by decide +kernel),
    by decide +kernel⟩

theorem witness_CompletenessMeansEverySector_sampled : ∃ (x : Lane) (p : Plan) (k : Stamp) (d : PassDef),
    LaneLaw x ∧ x.run.plan = some p ∧ p.first ≤ p.last ∧ x.run.current = some k ∧ p.passes[k.pass - 1]? = some d
    ∧ (d.verify = .sampled → 2 ≤ d.stride ∧ d.phase < d.stride) ∧ (d.verify = .sampled) :=
  ⟨withExtents [⟨0, 0, .verified⟩, ⟨1, 2, .written⟩, ⟨3, 3, .verified⟩] (runningLane (verifyPlan .sampled)),
    verifyPlan .sampled, ⟨1, 1⟩, ⟨.fill, .sampled, 7, 0, 4, 3⟩, laneLaw_of_laneCheck (by decide +kernel),
    by decide +kernel⟩

theorem witness_CompletenessMeansEverySector_last_pass : ∃ (l : LaneId) (tag : Tag) (start count : Nat) (e : Option Nat) (r : Record) (p : Plan) (k : Stamp) (d : PassDef) (s : State),
    Sound s ∧ (∀ a, Addresses r.operation a → (s.lane l).defects.lists a = false) ∧ (∃ a, Addresses r.operation
    a ∧ ¬ CountsAsWritten (conditionOf (s.lane l).coverage.extents a)) ∧ (∀ a, p.first ≤ a → a ≤ p.last → ¬
    Addresses r.operation a → CountsAsWritten (conditionOf (s.lane l).coverage.extents a) ∨ (s.lane
    l).defects.lists a = true) ∧ s.takesEvents l = true ∧ ((s.lane l).run.state = .running) ∧ ((s.lane
    l).run.plan = some p) ∧ ((s.lane l).run.current = some k) ∧ p.passes[k.pass - 1]? = some d ∧ d.verify =
    .none ∧ p.flush = false ∧ ReadyToRetire r (s.lane l) ∧ r.tag = tag ∧ r.operation = .write start count ∧
    r.stamp = some k ∧ r.marker = none ∧ 1 ≤ count ∧ (∀ x ∈ r.entries, x = .compared .matched) ∧ p.first ≤ start
    ∧ start + count ≤ p.last + 1 ∧ ((s.lane l).coverage.extents.length ≤ 62) ∧ ((s.lane l).defects.unlisted = 0)
    ∧ (k.pass = p.passes.length) :=
  ⟨0, 3, 2, 3, none, record 3 (.write 2 3) [.compared .matched, .compared .matched, .compared .matched],
    fillPlan, ⟨1, 1⟩, ⟨.fill, .none, 7, 0, 0, 0⟩,
    lane0 (withExtents [⟨0, 1, .verified⟩, ⟨5, 9, .written⟩] (withRecords [record 3 (.write 2 3) [.compared .matched, .compared .matched, .compared .matched]] (runningLane fillPlan))),
    sound_of_soundCheck (by decide +kernel), (fun _ _ => rfl), ⟨2, by decide +kernel⟩,
    (by
    intro a _ h hn
    have h : a ≤ 9 := h
    have hn : ¬ (2 ≤ a ∧ a < 5) := hn
    obtain rfl | rfl | rfl | rfl | rfl | rfl | rfl : a = 0 ∨ a = 1 ∨ a = 5 ∨ a = 6 ∨ a = 7 ∨ a = 8 ∨ a = 9 := by omega
    all_goals decide +kernel),
    by decide +kernel⟩

theorem witness_CompletenessMeansEverySector_pass_below_last : ∃ (l : LaneId) (tag : Tag) (start count : Nat) (e : Option Nat) (r : Record) (p : Plan) (k : Stamp) (d : PassDef) (s : State),
    Sound s ∧ (∀ a, Addresses r.operation a → (s.lane l).defects.lists a = false) ∧ (∃ a, Addresses r.operation
    a ∧ ¬ CountsAsWritten (conditionOf (s.lane l).coverage.extents a)) ∧ (∀ a, p.first ≤ a → a ≤ p.last → ¬
    Addresses r.operation a → CountsAsWritten (conditionOf (s.lane l).coverage.extents a) ∨ (s.lane
    l).defects.lists a = true) ∧ s.takesEvents l = true ∧ ((s.lane l).run.state = .running) ∧ ((s.lane
    l).run.plan = some p) ∧ ((s.lane l).run.current = some k) ∧ p.passes[k.pass - 1]? = some d ∧ d.verify =
    .none ∧ p.flush = false ∧ ReadyToRetire r (s.lane l) ∧ r.tag = tag ∧ r.operation = .write start count ∧
    r.stamp = some k ∧ r.marker = none ∧ 1 ≤ count ∧ (∀ x ∈ r.entries, x = .compared .matched) ∧ p.first ≤ start
    ∧ start + count ≤ p.last + 1 ∧ ((s.lane l).coverage.extents.length ≤ 62) ∧ ((s.lane l).defects.unlisted = 0)
    ∧ (k.pass < p.passes.length) :=
  ⟨0, 3, 2, 3, none, record 3 (.write 2 3) [.compared .matched, .compared .matched, .compared .matched],
    { fillPlan with passes := [⟨.fill, .none, 7, 0, 0, 0⟩, ⟨.invert, .full, 0, 0, 0, 0⟩] }, ⟨1, 1⟩,
    ⟨.fill, .none, 7, 0, 0, 0⟩,
    lane0 (withExtents [⟨0, 1, .verified⟩, ⟨5, 9, .written⟩] (withRecords [record 3 (.write 2 3) [.compared .matched, .compared .matched, .compared .matched]] (runningLane { fillPlan with passes := [⟨.fill, .none, 7, 0, 0, 0⟩, ⟨.invert, .full, 0, 0, 0, 0⟩] }))),
    sound_of_soundCheck (by decide +kernel), (fun _ _ => rfl), ⟨2, by decide +kernel⟩,
    (by
    intro a _ h hn
    have h : a ≤ 9 := h
    have hn : ¬ (2 ≤ a ∧ a < 5) := hn
    obtain rfl | rfl | rfl | rfl | rfl | rfl | rfl : a = 0 ∨ a = 1 ∨ a = 5 ∨ a = 6 ∨ a = 7 ∨ a = 8 ∨ a = 9 := by omega
    all_goals decide +kernel),
    by decide +kernel⟩

theorem witness_SampleCountIsExact : ∃ (stride phase n u v : Nat),
    2 ≤ stride ∧ phase < stride ∧ u ≤ v ∧ v < n ∧ (u = 0 ∧ v + 1 = n) :=
  ⟨2, 1, 1, 0, 0, by decide +kernel⟩

theorem witness_SampleCountIsExact_greatest_stride : ∃ (stride phase n u v : Nat),
    2 ≤ stride ∧ phase < stride ∧ u ≤ v ∧ v < n ∧ (v + 1 = n) :=
  ⟨65535, 65534, 70000, 65534, 69999, by decide +kernel⟩

theorem witness_ExpectedContentOfKinds_fill : ∃ (passes : List PassDef) (p lba k : Nat) (d : PassDef),
    1 ≤ p ∧ passes[p - 1]? = some d ∧ (d.kind = .fill) :=
  ⟨[⟨.stream, .none, 5, 0, 0, 0⟩, ⟨.fill, .none, 5, 6, 0, 0⟩], 2, 281474976710655, 1023,
    ⟨.fill, .none, 5, 6, 0, 0⟩, by decide +kernel⟩

theorem witness_ExpectedContentOfKinds_pair : ∃ (passes : List PassDef) (p lba k : Nat) (d : PassDef),
    1 ≤ p ∧ passes[p - 1]? = some d ∧ (d.kind = .pair) :=
  ⟨[⟨.stream, .none, 5, 0, 0, 0⟩, ⟨.pair, .none, 5, 6, 0, 0⟩], 2, 281474976710655, 1023,
    ⟨.pair, .none, 5, 6, 0, 0⟩, by decide +kernel⟩

theorem witness_ExpectedContentOfKinds_stream : ∃ (passes : List PassDef) (p lba k : Nat) (d : PassDef),
    1 ≤ p ∧ passes[p - 1]? = some d ∧ (d.kind = .stream) :=
  ⟨[⟨.stream, .none, 5, 0, 0, 0⟩, ⟨.stream, .none, 5, 6, 0, 0⟩], 2, 281474976710655, 1023,
    ⟨.stream, .none, 5, 6, 0, 0⟩, by decide +kernel⟩

theorem witness_ExpectedContentOfKinds_invert : ∃ (passes : List PassDef) (p lba k : Nat) (d : PassDef),
    1 ≤ p ∧ passes[p - 1]? = some d ∧ (d.kind = .invert) :=
  ⟨[⟨.stream, .none, 5, 0, 0, 0⟩, ⟨.invert, .none, 5, 6, 0, 0⟩], 2, 281474976710655, 1023,
    ⟨.invert, .none, 5, 6, 0, 0⟩, by decide +kernel⟩

theorem witness_AcceptedPlanHasContent : ∃ (size : SectorSize) (w : List Word),
    planFailure true size w = none ∧ ((decodePlan size w).passes.length = 4) :=
  ⟨.bytes512, planWords, by decide +kernel⟩

theorem witness_CreditOnlyForMatchingData : ∃ (s t : State) (l : LaneId) (a : Nat),
    Sound s ∧ step s = .next t ∧ conditionOf (s.lane l).coverage.extents a = none ∧ conditionOf (t.lane
    l).coverage.extents a ≠ none :=
  ⟨
    { lane0 (withExtents [] (withRecords [record 3 (.write 1 1) [.compared .matched]] (runningLane fillPlan))) with pending := [.complete 0 3 .good none] },
    after (.complete 0 3 .good none) (lane0 (withExtents [] (withRecords [record 3 (.write 1 1) [.compared .matched]] (runningLane fillPlan)))),
    0, 1, sound_of_soundCheck (by decide +kernel), rfl, by decide +kernel⟩

theorem witness_VerifiedOnlyByReadBack : ∃ (s t : State) (l : LaneId) (a : Nat),
    Sound s ∧ step s = .next t ∧ conditionOf (s.lane l).coverage.extents a ≠ some .verified ∧ conditionOf
    (t.lane l).coverage.extents a = some .verified :=
  ⟨
    { lane0 (withExtents [⟨0, 4, .written⟩] (withRecords [record 3 (.read 1 1) [.compared .matched]] (runningLane fillPlan))) with pending := [.complete 0 3 .good none] },
    after (.complete 0 3 .good none) (lane0 (withExtents [⟨0, 4, .written⟩] (withRecords [record 3 (.read 1 1) [.compared .matched]] (runningLane fillPlan)))),
    0, 1, sound_of_soundCheck (by decide +kernel), rfl, by decide +kernel⟩

theorem witness_StepKeepsPool : ∃ (s t : State),
    Sound s ∧ step s = .next t :=
  ⟨{ full0 6 (waitingLane true none) [0] with pending := [.detach 0 true] },
    after (.detach 0 true) (full0 6 (waitingLane true none) [0]), sound_of_soundCheck (by decide +kernel), rfl⟩

theorem witness_StepKeepsTablesAndJobs : ∃ (s t : State),
    Sound s ∧ step s = .next t :=
  ⟨{ full0 6 (waitingLane true none) [0] with pending := [.jobCompletion] },
    after (.jobCompletion) (full0 6 (waitingLane true none) [0]), sound_of_soundCheck (by decide +kernel), rfl⟩

theorem witness_StepKeepsMapsAndDefects : ∃ (s t : State),
    Sound s ∧ step s = .next t :=
  ⟨
    { lane0 (withExtents [⟨0, 1, .cached 2⟩, ⟨2, 3, .written⟩] (withRecords [record 3 (.write 1 3) [.compared .matched, .compared .matched, .compared .matched]] (runningLane flushPlan))) with pending := [.complete 0 3 .good none] },
    after (.complete 0 3 .good none) (lane0 (withExtents [⟨0, 1, .cached 2⟩, ⟨2, 3, .written⟩] (withRecords [record 3 (.write 1 3) [.compared .matched, .compared .matched, .compared .matched]] (runningLane flushPlan)))),
    sound_of_soundCheck (by decide +kernel), rfl⟩

theorem witness_StepKeepsRuns : ∃ (s t : State),
    Sound s ∧ step s = .next t :=
  ⟨{ lane0 (closingLane [record 3 (.write 0 1) [.notCaptured]]) with pending := [.drainExpiry 0] },
    after (.drainExpiry 0) (lane0 (closingLane [record 3 (.write 0 1) [.notCaptured]])),
    sound_of_soundCheck (by decide +kernel), rfl⟩

theorem witness_StepKeepsCertificates : ∃ (s t : State),
    Sound s ∧ step s = .next t :=
  ⟨{ issuing01 4294967295 with pending := [.storeWriteEnd true] },
    after (.storeWriteEnd true) (issuing01 4294967295), sound_of_soundCheck (by decide +kernel), rfl⟩

theorem witness_StepKeepsIssueNumbers : ∃ (s t : State),
    Sound s ∧ step s = .next t :=
  ⟨{ issuing01 4294967295 with pending := [.storeWriteEnd true] },
    after (.storeWriteEnd true) (issuing01 4294967295), sound_of_soundCheck (by decide +kernel), rfl⟩

end Sys2Proof.Tests
end

