-- ==== Sys2Proof/Proofs/ExpectedContent.lean ====
section
/-! The Pattern Generator's answer by the kind of the pass asked about (R64 to R68): one equation for each kind, all of
them from the one that puts the definition of the pass at the head of its chain. -/

namespace Sys2Proof.Machine

variable {passes : List PassDef} {p : Nat} {d : PassDef}

/-- The chain of pass `p` is its own definition followed by the chain of the pass before it. -/
theorem expectedWord_eq_expectedFrom_cons (lba k : Nat) (hp : 1 ≤ p) (hd : passes[p - 1]? = some d) :
    expectedWord passes p lba k = expectedFrom lba k (d :: (passes.take (p - 1)).reverse) := by
  have htake : passes.take p = passes.take (p - 1) ++ [d] := by
    have hsucc : passes.take (p - 1 + 1) = passes.take (p - 1) ++ [d] := by
      rw [List.take_add_one, hd, Option.toList_some]
    rwa [Nat.sub_add_cancel hp] at hsucc
  rw [expectedWord, htake, List.reverse_append, List.reverse_singleton, List.singleton_append]

theorem expectedWord_of_fill (lba k : Nat) (hp : 1 ≤ p) (hd : passes[p - 1]? = some d) (hk : d.kind = .fill) :
    expectedWord passes p lba k = some d.operand1 := by
  rw [expectedWord_eq_expectedFrom_cons lba k hp hd, expectedFrom, hk]

theorem expectedWord_of_pair (lba k : Nat) (hp : 1 ≤ p) (hd : passes[p - 1]? = some d) (hk : d.kind = .pair) :
    expectedWord passes p lba k = some (if (k + lba) % 2 = 0 then d.operand1 else d.operand2) := by
  rw [expectedWord_eq_expectedFrom_cons lba k hp hd, expectedFrom, hk]

theorem expectedWord_of_stream (lba k : Nat) (hp : 1 ≤ p) (hd : passes[p - 1]? = some d) (hk : d.kind = .stream) :
    expectedWord passes p lba k = some (streamWord d.operand1 lba k) := by
  rw [expectedWord_eq_expectedFrom_cons lba k hp hd, expectedFrom, hk]

theorem expectedWord_of_invert (lba k : Nat) (hp : 1 ≤ p) (hd : passes[p - 1]? = some d) (hk : d.kind = .invert) :
    expectedWord passes p lba k =
      (expectedWord passes (p - 1) lba k).map (fun v => BitVec.ofNat 32 (4294967295 - v.toNat)) := by
  rw [expectedWord_eq_expectedFrom_cons lba k hp hd, expectedFrom, hk, expectedWord]

/-- The start value is reduced mod 2^32 before the first step of the sequence (R66, R67). -/
theorem streamWord_zero (seed : Word) (lba : Nat) :
    streamWord seed lba 0 = BitVec.ofNat 32 ((seed.toNat + 40503 * lba) % 4294967296 * 69069 + 1) := by
  rw [streamWord, streamNext, streamStart, BitVec.toNat_ofNat]

theorem streamWord_succ (seed : Word) (lba k : Nat) :
    streamWord seed lba (k + 1) = BitVec.ofNat 32 ((streamWord seed lba k).toNat * 69069 + 1) := by
  rw [streamWord, streamNext]

end Sys2Proof.Machine

namespace Sys2Proof.Proofs

open Sys2Proof Sys2Proof.Machine

/-- Settles O51, by the equation of each pattern kind. -/
theorem expectedContentOfKinds : Obligations.ExpectedContentOfKinds := by
  intro passes p lba k d hp hd
  refine ⟨expectedWord_of_fill lba k hp hd, expectedWord_of_pair lba k hp hd, fun hkind => ⟨?word0, ?next⟩,
    expectedWord_of_invert lba k hp hd⟩
  case word0 => rw [expectedWord_of_stream lba 0 hp hd hkind, streamWord_zero]
  case next =>
    intro v hv
    rw [expectedWord_of_stream lba k hp hd hkind, Option.some_inj] at hv
    rw [expectedWord_of_stream lba (k + 1) hp hd hkind, streamWord_succ, hv]

end Sys2Proof.Proofs
end

