-- ==== Sys2Proof/Proofs/PlanTests.lean ====
section
/-! The ten tests of a plan (R81): what each fails on, in the words of the sector that R173 places, and a search for
the first failed test of a list as the chain of conditionals that `planFailure` is. -/

namespace Sys2Proof.Machine

/-! ## The search for the first failed test -/

theorem map_fst_find?_snd_cons {α : Type} (a : α) (b : Bool) (rest : List (α × Bool)) :
    (((a, b) :: rest).find? (fun q => q.2)).map Prod.fst =
      if b = true then some a else (rest.find? (fun q => q.2)).map Prod.fst := by
  cases b <;> rfl

/-- Two chains of tests agree when their first tests do, and the rest agree where that test is passed. -/
theorem firstFailure_congr {α : Type} {P Q : Prop} [Decidable P] [Decidable Q] {a : α} {x y : Option α}
    (htest : P ↔ Q) (hrest : ¬Q → x = y) : (if P then some a else x) = if Q then some a else y :=
  ite_congr (propext htest) (fun _ => rfl) hrest

/-! ## Halves and passes -/

/-- A word keeps its high half in bytes 2 and 3. -/
theorem highHalf_ne_zero_iff (w : Word) : highHalf w ≠ 0 ↔ byteOf 2 w ≠ 0 ∨ byteOf 3 w ≠ 0 := by
  have hlt : w.toNat < 4294967296 := w.isLt
  simp only [highHalf, byteOf]
  omega

/-- A search of the first `n` places, where there are at most `m` of them. -/
theorem any_range_iff_exists_fin {n m : Nat} (hnm : n ≤ m) (f : Nat → Bool) :
    (List.range n).any f = true ↔ ∃ i : Fin m, i.val < n ∧ f i.val = true := by
  simp only [List.any_eq_true, List.mem_range]
  constructor
  · rintro ⟨i, hi, hf⟩
    exact ⟨⟨i, Nat.lt_of_lt_of_le hi hnm⟩, hi, hf⟩
  · rintro ⟨i, hi, hf⟩
    exact ⟨i, hi, hf⟩

theorem passWord_zero (w : List Word) (i : Nat) : passWord w i 0 = wordAt w (13 + 4 * i) := rfl

theorem passWord_three (w : List Word) (i : Nat) : passWord w i 3 = wordAt w (16 + 4 * i) := by
  rw [passWord, Nat.add_right_comm]

/-! ## What each test fails on -/

variable (w : List Word)

/-- Test 4 looks at no more than the four pass definitions there are, whatever the pass count (R82). -/
theorem reservedFieldBad_iff :
    reservedFieldBad w = true ↔
      byteOf 2 (wordAt w 2) ≠ 0 ∨ byteOf 3 (wordAt w 2) ≠ 0 ∨ byteOf 3 (wordAt w 10) ≠ 0 ∨
        byteOf 3 (wordAt w 12) ≠ 0 ∨
        (∃ i : Fin 4, i.val < byteOf 1 (wordAt w 9) ∧
          (byteOf 2 (wordAt w (13 + 4 * i.val)) ≠ 0 ∨ byteOf 3 (wordAt w (13 + 4 * i.val)) ≠ 0)) ∨
        wordAt w 30 ≠ 0 ∨ wordAt w 31 ≠ 0 ∨ 1 < byteOf 2 (wordAt w 9) := by
  have hpasses :
      (List.range (min (planPassCount w) 4)).any (fun i => decide (highHalf (passWord w i 0) ≠ 0)) = true ↔
        ∃ i : Fin 4, i.val < byteOf 1 (wordAt w 9) ∧
          (byteOf 2 (wordAt w (13 + 4 * i.val)) ≠ 0 ∨ byteOf 3 (wordAt w (13 + 4 * i.val)) ≠ 0) := by
    simp only [any_range_iff_exists_fin (Nat.min_le_right _ 4), decide_eq_true_eq]
    simp only [highHalf_ne_zero_iff, passWord_zero, planPassCount, Nat.lt_min, Fin.is_lt, and_true]
  simp only [reservedFieldBad, Bool.or_eq_true, hpasses, decide_eq_true_eq]
  simp only [highHalf_ne_zero_iff, or_assoc]

theorem sizeBad_iff (size : SectorSize) :
    sizeBad size w = true ↔ byteOf 0 (wordAt w 9) ≠ size.code := by
  rw [sizeBad, decide_eq_true_eq]

theorem rangeBad_iff :
    rangeBad w = true ↔
      65536 ≤ (wordAt w 6).toNat ∨ 65536 ≤ (wordAt w 8).toNat ∨
        (wordAt w 7).toNat + 4294967296 * (wordAt w 8).toNat <
          (wordAt w 5).toNat + 4294967296 * (wordAt w 6).toNat := by
  simp only [rangeBad, Bool.or_eq_true, decide_eq_true_eq, or_assoc]
  rw [planFirst, planLast]

theorem passCountBad_iff :
    passCountBad w = true ↔ byteOf 1 (wordAt w 9) < 1 ∨ 4 < byteOf 1 (wordAt w 9) := by
  simp only [passCountBad, Bool.or_eq_true, decide_eq_true_eq, Nat.lt_one_iff]
  rw [planPassCount]

/-- Tests 8 and 9 meet a pass count that test 7 has let through, so four pass definitions are all they look at. -/
theorem patternBad_iff (hcount : planPassCount w ≤ 4) :
    patternBad w = true ↔
      (∃ i : Fin 4, i.val < byteOf 1 (wordAt w 9) ∧ 3 < byteOf 0 (wordAt w (13 + 4 * i.val))) ∨
        byteOf 0 (wordAt w 13) = 3 := by
  simp only [patternBad, Bool.or_eq_true, any_range_iff_exists_fin hcount, decide_eq_true_eq]
  simp only [passWord_zero, planPassCount, Nat.mul_zero, Nat.add_zero]

theorem verifyBad_iff (hcount : planPassCount w ≤ 4) :
    verifyBad w = true ↔
      ∃ i : Fin 4, i.val < byteOf 1 (wordAt w 9) ∧
        (2 < byteOf 1 (wordAt w (13 + 4 * i.val)) ∨ (byteOf 1 (wordAt w (13 + 4 * i.val)) = 1 ∧
          ((wordAt w (16 + 4 * i.val)).toNat % 65536 < 2 ∨
            (wordAt w (16 + 4 * i.val)).toNat % 65536 ≤ (wordAt w (16 + 4 * i.val)).toNat / 65536))) := by
  simp only [verifyBad, any_range_iff_exists_fin hcount, Bool.or_eq_true, Bool.and_eq_true, decide_eq_true_eq]
  simp only [passWord_zero, passWord_three, lowHalf, highHalf, planPassCount]

/-- Of the seven fault actions, word 11 holds the first four and word 12 the other three (R173). -/
theorem actionBad_iff :
    actionBad w = true ↔
      (∃ i : Fin 4, 3 < byteOf i.val (wordAt w 11)) ∨ ∃ i : Fin 3, 3 < byteOf i.val (wordAt w 12) := by
  simp only [actionBad, List.any_eq_true, List.mem_range, decide_eq_true_eq]
  simp only [actionCode]
  constructor
  · rintro ⟨i, hi, hbad⟩
    split at hbad
    case isTrue hfour => exact .inl ⟨⟨i, hfour⟩, hbad⟩
    case isFalse hfour => exact .inr ⟨⟨i - 4, by omega⟩, hbad⟩
  · rintro (⟨i, hbad⟩ | ⟨i, hbad⟩)
    · exact ⟨i, by omega, by rwa [if_pos i.isLt]⟩
    · exact ⟨i + 4, by omega, by rwa [if_neg (by omega), Nat.add_sub_cancel]⟩

end Sys2Proof.Machine

namespace Sys2Proof.Proofs

open Sys2Proof Sys2Proof.Machine

/-- Settles O44, test by test in the order of R81. Tests 8 and 9 are compared only where test 7 is passed: a count
above 4 would have `patternBad` and `verifyBad` read past the four pass definitions. -/
theorem planTestsInOrder : Obligations.PlanTestsInOrder := by
  refine ⟨rfl, fun readEnded size w => ?_⟩
  simp only [map_fst_find?_snd_cons, decide_eq_true_eq]
  refine firstFailure_congr (by rw [Bool.not_eq_true']) fun _ => ?_
  refine firstFailure_congr Iff.rfl fun _ => ?_
  refine firstFailure_congr Iff.rfl fun _ => ?_
  refine firstFailure_congr (reservedFieldBad_iff w) fun _ => ?_
  refine firstFailure_congr (sizeBad_iff w size) fun _ => ?_
  refine firstFailure_congr (rangeBad_iff w) fun _ => ?_
  refine firstFailure_congr (passCountBad_iff w) fun hpasses => ?_
  have hcount : planPassCount w ≤ 4 := Nat.not_lt.mp fun hmore => hpasses (.inr hmore)
  refine firstFailure_congr (patternBad_iff w hcount) fun _ => ?_
  refine firstFailure_congr (verifyBad_iff w hcount) fun _ => ?_
  exact firstFailure_congr (actionBad_iff w) fun _ => rfl

end Sys2Proof.Proofs
end

