-- ==== Sys2Proof/Proofs/Samples.lean ====
section
/-! The samples of a range (R117) and how many an interval holds (R118). Both are reached through one running count, the
number of samples below an offset: it grows by one at each sample, and R118's arithmetic is its difference. -/

namespace Sys2Proof.Machine

variable {stride phase n u v m : Nat}

/-! ## Offsets the stride counts -/

theorem strideCount_of_le (hle : n ≤ phase) : strideCount stride phase n = 0 := if_pos hle

theorem strideCount_of_lt (hlt : phase < n) : strideCount stride phase n = (n - 1 - phase) / stride + 1 :=
  if_neg (Nat.not_le.mpr hlt)

theorem strideCount_zero : strideCount stride phase 0 = 0 := strideCount_of_le (Nat.zero_le phase)

theorem add_mod_eq_left_iff_dvd (hphase : phase < stride) (d : Nat) :
    (phase + d) % stride = phase ↔ stride ∣ d := by
  constructor
  · intro hmod
    have hdiv : stride * ((phase + d) / stride) + (phase + d) % stride = phase + d := Nat.div_add_mod _ _
    exact ⟨(phase + d) / stride, by omega⟩
  · rintro ⟨q, rfl⟩
    rw [Nat.add_mul_mod_self_left, Nat.mod_eq_of_lt hphase]

/-- The stride counts one offset more past `n` exactly where it lands on `n`. -/
theorem strideCount_succ (hphase : phase < stride) (n : Nat) :
    strideCount stride phase (n + 1) = strideCount stride phase n + if n % stride = phase then 1 else 0 := by
  rcases Nat.lt_trichotomy n phase with hlt | rfl | hgt
  · rw [strideCount_of_le hlt, strideCount_of_le (Nat.le_of_lt hlt), Nat.mod_eq_of_lt (Nat.lt_trans hlt hphase),
      if_neg (Nat.ne_of_lt hlt)]
  · rw [strideCount_of_lt (Nat.lt_succ_self n), strideCount_of_le (Nat.le_refl n), Nat.mod_eq_of_lt hphase,
      if_pos rfl, Nat.succ_sub_one, Nat.sub_self, Nat.zero_div]
  · obtain ⟨d, rfl⟩ := Nat.exists_eq_add_of_lt hgt
    have hoffset : phase + d + 1 + 1 - 1 - phase = d + 1 := by omega
    have hbefore : phase + d + 1 - 1 - phase = d := by omega
    rw [strideCount_of_lt hgt, strideCount_of_lt (Nat.lt_succ_of_lt hgt), hoffset, hbefore, Nat.succ_div,
      Nat.add_right_comm]
    simp only [Nat.add_assoc phase d 1, add_mod_eq_left_iff_dvd hphase]

theorem strideCount_mono (hphase : phase < stride) (hle : m ≤ n) :
    strideCount stride phase m ≤ strideCount stride phase n := by
  induction hle with
  | refl => exact Nat.le_refl _
  | step _ ih =>
    rw [strideCount_succ hphase]
    exact Nat.le_trans ih (Nat.le_add_right _ _)

/-! ## Running counts -/

/-- How many offsets below `m` meet `b`. -/
def countBelow (b : Nat → Bool) (m : Nat) : Nat := ((List.range m).filter b).length

theorem countBelow_zero (b : Nat → Bool) : countBelow b 0 = 0 := rfl

theorem countBelow_succ (b : Nat → Bool) (m : Nat) :
    countBelow b (m + 1) = countBelow b m + if b m = true then 1 else 0 := by
  rw [countBelow, countBelow, List.range_succ, ← List.countP_eq_length_filter, List.countP_append,
    List.countP_singleton, List.countP_eq_length_filter]

theorem countBelow_mono (b : Nat → Bool) (hle : m ≤ n) : countBelow b m ≤ countBelow b n :=
  ((List.range_sublist.mpr hle).filter b).length_le

/-- Offset `j` meets `b` and lies in `[u, v]`. -/
def inInterval (u v : Nat) (b : Nat → Bool) (j : Nat) : Bool := decide (u ≤ j) && decide (j ≤ v) && b j

theorem inInterval_of_lt (b : Nat → Bool) (hm : m < u) : inInterval u v b m = false := by
  rw [inInterval, decide_eq_false (Nat.not_le.mpr hm), Bool.false_and, Bool.false_and]

theorem inInterval_of_gt (b : Nat → Bool) (hm : v < m) : inInterval u v b m = false := by
  rw [inInterval, decide_eq_false (Nat.not_le.mpr hm), Bool.and_false, Bool.false_and]

theorem inInterval_of_mem (b : Nat → Bool) (hum : u ≤ m) (hmv : m ≤ v) : inInterval u v b m = b m := by
  rw [inInterval, decide_eq_true hum, decide_eq_true hmv, Bool.true_and, Bool.true_and]

/-- What an interval holds is the difference of the running counts at its two ends. -/
theorem countBelow_add_countBelow_inInterval (b : Nat → Bool) (huv : u ≤ v) (m : Nat) :
    countBelow b (min u m) + countBelow (inInterval u v b) m = countBelow b (min (v + 1) m) := by
  induction m with
  | zero => rw [Nat.min_zero, Nat.min_zero, countBelow_zero, countBelow_zero]
  | succ m ih =>
    rw [countBelow_succ (inInterval u v b)]
    rcases Nat.lt_or_ge m u with hbefore | hfrom
    · rw [Nat.min_eq_right (Nat.le_of_lt hbefore), Nat.min_eq_right (by omega)] at ih
      rw [Nat.min_eq_right hbefore, Nat.min_eq_right (by omega), inInterval_of_lt b hbefore, countBelow_succ b,
        if_neg Bool.false_ne_true, Nat.add_zero, Nat.add_right_comm, ih]
    rw [Nat.min_eq_left hfrom] at ih
    rw [Nat.min_eq_left (Nat.le_succ_of_le hfrom)]
    rcases Nat.lt_or_ge v m with hafter | hto
    · rw [Nat.min_eq_left hafter] at ih
      rw [Nat.min_eq_left (Nat.le_succ_of_le hafter), inInterval_of_gt b hafter, if_neg Bool.false_ne_true,
        Nat.add_zero, ih]
    · rw [Nat.min_eq_right (Nat.le_succ_of_le hto)] at ih
      rw [Nat.min_eq_right (Nat.succ_le_succ hto), inInterval_of_mem b hfrom hto, countBelow_succ b, ← ih,
        Nat.add_assoc]

/-! ## Samples below an offset -/

/-- Offset `j` of a range of `n` sectors is a sample (R117). -/
def isSample (stride phase n j : Nat) : Bool :=
  decide (j % stride = phase) || decide (j = 0) || decide (j + 1 = n)

theorem isSample_iff {j : Nat} : isSample stride phase n j = true ↔ j % stride = phase ∨ j = 0 ∨ j + 1 = n := by
  rw [isSample, Bool.or_eq_true, Bool.or_eq_true, decide_eq_true_iff, decide_eq_true_iff, decide_eq_true_iff,
    or_assoc]

theorem isSample_zero : isSample stride phase n 0 = true := isSample_iff.mpr (.inr (.inl rfl))

theorem isSample_last {j : Nat} (hlast : j + 1 = n) : isSample stride phase n j = true :=
  isSample_iff.mpr (.inr (.inr hlast))

/-- Past offset 0 a sample is what the stride counts or, where the stride misses it, the last offset. -/
theorem isSample_succ_count (stride phase n m : Nat) :
    (if isSample stride phase n (m + 1) = true then 1 else 0) = (if (m + 1) % stride = phase then 1 else 0)
      + if m + 1 + 1 = n ∧ n ≠ 1 ∧ (n - 1) % stride ≠ phase then 1 else 0 := by
  by_cases hlast : m + 1 + 1 = n
  case pos =>
    have hmany : n ≠ 1 := by omega
    have hoffset : n - 1 = m + 1 := by omega
    rw [if_pos (isSample_last hlast), hoffset]
    by_cases hlands : (m + 1) % stride = phase
    · have hcounted : ¬ (m + 1 + 1 = n ∧ n ≠ 1 ∧ (m + 1) % stride ≠ phase) := fun h => h.2.2 hlands
      rw [if_pos hlands, if_neg hcounted]
    · rw [if_neg hlands, if_pos ⟨hlast, hmany, hlands⟩]
  case neg =>
    have hnotLast : ¬ (m + 1 + 1 = n ∧ n ≠ 1 ∧ (n - 1) % stride ≠ phase) := fun h => hlast h.1
    rw [if_neg hnotLast]
    simp only [isSample_iff, hlast, Nat.succ_ne_zero, or_false, Nat.add_zero]

/-- Past the first offset the running count is the stride's own count with the two additions of R118, for offset 0 and
for offset n − 1 where the stride misses them. -/
theorem countBelow_isSample_succ (hphase : phase < stride) (hm : m < n) :
    countBelow (isSample stride phase n) (m + 1) = strideCount stride phase (m + 1)
      + (if phase ≠ 0 then 1 else 0) + if m + 1 = n ∧ n ≠ 1 ∧ (n - 1) % stride ≠ phase then 1 else 0 := by
  induction m with
  | zero =>
    have hfirst : ¬ (0 + 1 = n ∧ n ≠ 1 ∧ (n - 1) % stride ≠ phase) := fun hlast => hlast.2.1 hlast.1.symm
    rw [countBelow_succ, countBelow_zero, strideCount_succ hphase, strideCount_zero, if_pos isSample_zero,
      Nat.zero_mod, if_neg hfirst]
    split <;> split <;> omega
  | succ m ih =>
    have hnotLast : ¬ (m + 1 = n ∧ n ≠ 1 ∧ (n - 1) % stride ≠ phase) := fun hlast => Nat.ne_of_lt hm hlast.1
    rw [countBelow_succ, ih (Nat.lt_of_succ_lt hm), if_neg hnotLast, isSample_succ_count,
      strideCount_succ hphase (m + 1)]
    omega

theorem countBelow_isSample_one : countBelow (isSample stride phase n) 1 = 1 := by
  rw [countBelow_succ, countBelow_zero, if_pos isSample_zero]

/-- Offsets 0 and n − 1 are two samples as soon as they are two offsets (R117). -/
theorem two_le_countBelow_isSample (hn : 2 ≤ n) : 2 ≤ countBelow (isSample stride phase n) n := by
  obtain ⟨m, rfl⟩ := Nat.exists_eq_add_of_le' hn
  have hfirst : 1 ≤ countBelow (isSample stride phase (m + 2)) (m + 1) :=
    Nat.le_trans (Nat.le_of_eq countBelow_isSample_one.symm) (countBelow_mono _ (Nat.le_add_left 1 m))
  rw [countBelow_succ, if_pos (isSample_last rfl)]
  exact Nat.succ_le_succ hfirst

/-! ## Samples of an interval and of the range -/

/-- R118 counts the interval as the samples up to its end less those before its start. -/
theorem countBelow_isSample_add_sampleCount (hphase : phase < stride) (huv : u ≤ v) (hvn : v < n) :
    countBelow (isSample stride phase n) u + sampleCount stride phase n u v =
      countBelow (isSample stride phase n) (v + 1) := by
  rw [countBelow_isSample_succ hphase hvn, sampleCount]
  cases u with
  | zero =>
    simp only [countBelow_zero, strideCount_zero, Nat.zero_add, Nat.sub_zero, true_and]
  | succ u =>
    have hmono : strideCount stride phase (u + 1) ≤ strideCount stride phase (v + 1) :=
      strideCount_mono hphase (Nat.le_succ_of_le huv)
    have hnotLast : ¬ (u + 1 = n ∧ n ≠ 1 ∧ (n - 1) % stride ≠ phase) := fun hlast => by omega
    have hnotFirst : ¬ (u + 1 = 0 ∧ phase ≠ 0) := fun hfirst => Nat.succ_ne_zero u hfirst.1
    rw [countBelow_isSample_succ hphase (by omega), if_neg hnotLast, if_neg hnotFirst]
    omega

theorem sampleCount_eq_countBelow (hphase : phase < stride) (huv : u ≤ v) (hvn : v < n) :
    sampleCount stride phase n u v = countBelow (inInterval u v (isSample stride phase n)) n := by
  have hinterval := countBelow_add_countBelow_inInterval (isSample stride phase n) huv n
  rw [Nat.min_eq_left (Nat.le_trans huv (Nat.le_of_lt hvn)), Nat.min_eq_left (Nat.succ_le_of_lt hvn),
    ← countBelow_isSample_add_sampleCount hphase huv hvn] at hinterval
  exact (Nat.add_left_cancel hinterval).symm

theorem totalSamples_eq_countBelow (hphase : phase < stride) (hn : 0 < n) :
    totalSamples stride phase n = countBelow (isSample stride phase n) n := by
  have hbelow := countBelow_isSample_add_sampleCount hphase (Nat.zero_le (n - 1)) (Nat.sub_one_lt_of_lt hn)
  rwa [countBelow_zero, Nat.zero_add, Nat.sub_add_cancel hn] at hbelow

end Sys2Proof.Machine

namespace Sys2Proof.Proofs

open Sys2Proof Sys2Proof.Machine

/-- Settles O50, through the running count of the samples below an offset. -/
theorem sampleCountIsExact : Obligations.SampleCountIsExact := by
  intro stride phase n u v _ hphase huv hvn
  have hinterval := sampleCount_eq_countBelow hphase huv hvn
  have htotal := totalSamples_eq_countBelow hphase (Nat.zero_lt_of_lt hvn)
  have hone : n = 1 → totalSamples stride phase n = 1 := by
    rintro rfl
    rw [htotal, countBelow_isSample_one]
  have htwo : 2 ≤ n → 2 ≤ totalSamples stride phase n := fun hn => htotal ▸ two_le_countBelow_isSample hn
  exact ⟨hinterval, htotal, by omega, hone, htwo⟩

end Sys2Proof.Proofs
end

