-- ==== Sys2Proof/Proofs/FaultGroups.lean ====
section
/-! The action of a fault group and its deciding class (R151, R152). The group's action bounds the action of every member
and, since NOTE is the weakest action, is the action of one of them; the deciding class is then that of the first such
member. -/

namespace Sys2Proof.Machine

/-! ## The stronger of two actions -/

@[simp] theorem Action.stronger_note (a : Action) : a.stronger .note = a := by cases a <;> rfl

theorem Action.code_stronger (a b : Action) : (a.stronger b).code = max a.code b.code := by
  rw [Action.stronger, apply_ite Action.code, ← Nat.max_def]

theorem Action.stronger_eq_or (a b : Action) : a.stronger b = a ∨ a.stronger b = b := by
  by_cases hle : a.code ≤ b.code
  · exact .inr (if_pos hle)
  · exact .inl (if_neg hle)

/-! ## The action of a group -/

variable {c : RunControl} {g : List LaneFault}

theorem RunControl.actionOf_of_plan {p : Plan} (hplan : c.plan = some p) (k : FaultClass) :
    c.actionOf k = p.actions[k.place.val] := by
  rw [RunControl.actionOf, hplan]

theorem RunControl.groupAction_cons (f : LaneFault) :
    c.groupAction (f :: g) = (c.actionOf f.cls).stronger (c.groupAction g) := rfl

theorem RunControl.code_actionOf_le_groupAction :
    ∀ f ∈ g, (c.actionOf f.cls).code ≤ (c.groupAction g).code := by
  induction g with
  | nil => exact fun _ hf => absurd hf List.not_mem_nil
  | cons first rest ih =>
    rw [RunControl.groupAction_cons, Action.code_stronger, List.forall_mem_cons]
    exact ⟨Nat.le_max_left _ _, fun f hf => Nat.le_trans (ih f hf) (Nat.le_max_right _ _)⟩

theorem RunControl.exists_mem_actionOf_eq_groupAction (hg : g ≠ []) :
    ∃ f ∈ g, c.actionOf f.cls = c.groupAction g := by
  induction g with
  | nil => exact absurd rfl hg
  | cons first rest ih =>
    rw [RunControl.groupAction_cons]
    by_cases hrest : rest = []
    · subst hrest
      exact ⟨first, List.mem_cons_self, (Action.stronger_note _).symm⟩
    · obtain hfirst | htail := Action.stronger_eq_or (c.actionOf first.cls) (c.groupAction rest)
      · exact ⟨first, List.mem_cons_self, hfirst.symm⟩
      · obtain ⟨f, hf, haction⟩ := ih hrest
        exact ⟨f, List.mem_cons_of_mem first hf, haction.trans htail.symm⟩

/-! ## The deciding class of a group -/

theorem RunControl.decidingClass_eq_some_iff {k : FaultClass} :
    c.decidingClass g = some k ↔
      ∃ before f after, g = before ++ f :: after ∧ c.actionOf f.cls = c.groupAction g ∧ f.cls = k ∧
        ∀ q ∈ before, c.actionOf q.cls ≠ c.groupAction g := by
  simp only [RunControl.decidingClass, Option.map_eq_some_iff, List.find?_eq_some_iff_append,
    Bool.not_eq_true', decide_eq_true_eq, decide_eq_false_iff_not]
  constructor
  · rintro ⟨f, ⟨haction, before, after, hsplit, hbefore⟩, hclass⟩
    exact ⟨before, f, after, hsplit, haction, hclass, hbefore⟩
  · rintro ⟨before, f, after, hsplit, haction, hclass, hbefore⟩
    exact ⟨f, ⟨haction, before, after, hsplit, hbefore⟩, hclass⟩

theorem RunControl.exists_decidingClass (hg : g ≠ []) : ∃ k, c.decidingClass g = some k := by
  obtain ⟨f, hf, haction⟩ := RunControl.exists_mem_actionOf_eq_groupAction (c := c) hg
  rw [← Option.isSome_iff_exists, RunControl.decidingClass, Option.isSome_map, List.find?_isSome]
  exact ⟨f, hf, decide_eq_true haction⟩

end Sys2Proof.Machine

namespace Sys2Proof.Proofs

open Sys2Proof Sys2Proof.Machine

/-- Settles O41: no member's action is above the group's, and the search for the deciding class succeeds since some
member has the group's action. -/
theorem groupActionIsStrongest : Obligations.GroupActionIsStrongest := by
  intro c p g hplan hg
  simp only [← RunControl.actionOf_of_plan hplan]
  refine ⟨RunControl.code_actionOf_le_groupAction, ?_⟩
  obtain ⟨k, hk⟩ := RunControl.exists_decidingClass (c := c) hg
  obtain ⟨before, f, after, hsplit, haction, rfl, hbefore⟩ := RunControl.decidingClass_eq_some_iff.mp hk
  exact ⟨before, f, after, hsplit, haction, hk, hbefore⟩

end Sys2Proof.Proofs
end
